-- ==== Sys2Proof/Word.lean ====
section
/-! DEFINITION. The word types of the AVR: the byte of a register or data location (R20, R60), the 16-bit
word of program memory and of a register pair (R23, R67), the program counter's word address (R27) and a
working register's number (R20). -/

namespace Sys2Proof

/-- A byte: the width of R0..R31, of the ALU and of a data location (R9, R20, R60). -/
abbrev Byte := BitVec 8

/-- Sixteen bits: a word of program memory, a register pair, SP, a data address (R23, R35, R60, R67). -/
abbrev Word := BitVec 16

/-- A word address of program memory: 22 bits, the widest `PC_BITS` of R9 and R27. -/
abbrev PcWord := BitVec 22

/-- The number of a working register R0..R31 (R20). -/
abbrev Reg := Fin 32

end Sys2Proof
end

