-- ==== Sys2Proof/Machine/Flags.lean ====
section
/-! DEFINITION. The flags of SREG (R31) and every flag computation (R120 to R125, R139, R143, R144, R288). Arithmetic is done on unbounded
integers, as R16 says, and narrowed at the end. -/

namespace Sys2Proof.Machine

/-- A bit number of SREG (R31). -/
abbrev Flag := Fin 8

/-- Carry, bit 0 -/
def flagC : Flag := 0
/-- Zero, bit 1 -/
def flagZ : Flag := 1
/-- Negative, bit 2 -/
def flagN : Flag := 2
/-- Two's complement overflow, bit 3 -/
def flagV : Flag := 3
/-- N ^ V, bit 4 -/
def flagS : Flag := 4
/-- Half carry, bit 5 -/
def flagH : Flag := 5
/-- Transfer bit, bit 6 -/
def flagT : Flag := 6
/-- Global interrupt enable, bit 7 -/
def flagI : Flag := 7

/-- `v` with bit `b` set to `x`. -/
def putBit (v : Byte) (b : Fin 8) (x : Bool) : Byte :=
  if x then v ||| BitVec.ofNat 8 (2 ^ b.val) else v &&& ~~~(BitVec.ofNat 8 (2 ^ b.val))

/-- The result and the six flags of an 8-bit operation. -/
structure AluOut where
  r : Byte
  h : Bool
  s : Bool
  v : Bool
  n : Bool
  z : Bool
  c : Bool
  deriving DecidableEq, Repr

/-- `AddFlags(a, b, c)` (R120). -/
def addFlags (a b : Byte) (c : Bool) : AluOut :=
  let sum := a.toNat + b.toNat + c.toNat
  let r := BitVec.ofNat 8 sum
  let v := a.msb == b.msb && r.msb != a.msb
  { r := r
    h := decide (a.toNat % 16 + b.toNat % 16 + c.toNat > 15)
    s := r.msb ^^ v
    v := v
    n := r.msb
    z := r == 0#8
    c := decide (sum > 255) }

/-- `SubFlags(a, b, c)` (R121); the Z here is that of the byte alone. -/
def subFlags (a b : Byte) (c : Bool) : AluOut :=
  let diff : Int := (a.toNat : Int) - (b.toNat : Int) - (c.toNat : Int)
  let r := BitVec.ofInt 8 diff
  let v := a.msb != b.msb && r.msb != a.msb
  { r := r
    h := decide (a.toNat % 16 < b.toNat % 16 + c.toNat)
    s := r.msb ^^ v
    v := v
    n := r.msb
    z := r == 0#8
    c := decide (a.toNat < b.toNat + c.toNat) }

/-- Z of SBC, SBCI and CPC: the byte's Z and the Z before the instruction (R123). -/
def AluOut.chainZ (o : AluOut) (oldZ : Bool) : AluOut := { o with z := o.z && oldZ }

/-- SREG with H, S, V, N, Z, C of `o`; T and I as before. -/
def sregHSVNZC (sreg : Byte) (o : AluOut) : Byte :=
  putBit (putBit (putBit (putBit (putBit (putBit sreg flagH o.h) flagS o.s) flagV o.v) flagN o.n) flagZ o.z) flagC o.c

/-- SREG with S, V, N, Z, C; H, T, I as before. -/
def sregSVNZC (sreg : Byte) (v n z c : Bool) : Byte :=
  putBit (putBit (putBit (putBit (putBit sreg flagS (n ^^ v)) flagV v) flagN n) flagZ z) flagC c

/-- SREG with S, V, N, Z; C, H, T, I as before. -/
def sregSVNZ (sreg : Byte) (v n z : Bool) : Byte :=
  putBit (putBit (putBit (putBit sreg flagS (n ^^ v)) flagV v) flagN n) flagZ z

/-- SREG with Z and C; the others as before. -/
def sregZC (sreg : Byte) (z c : Bool) : Byte := putBit (putBit sreg flagZ z) flagC c

/-- `LogicFlags(R)` (R122). -/
def logicFlags (sreg r : Byte) : Byte := sregSVNZ sreg false r.msb (r == 0#8)

/-- Flags of COM (R139): C set, V cleared. -/
def comFlags (sreg r : Byte) : Byte := sregSVNZC sreg false r.msb (r == 0#8) true

/-- Flags of INC (R143): V exactly when the result is 0x80. -/
def incFlags (sreg r : Byte) : Byte := sregSVNZ sreg (r == 0x80#8) r.msb (r == 0#8)

/-- Flags of DEC (R144): V exactly when the result is 0x7F. -/
def decFlags (sreg r : Byte) : Byte := sregSVNZ sreg (r == 0x7F#8) r.msb (r == 0#8)

/-- Flags of LSR, ROR, ASR (R288): C the bit shifted out, V = N ^ C. -/
def shiftFlags (sreg r : Byte) (out : Bool) : Byte := sregSVNZC sreg (r.msb ^^ out) r.msb (r == 0#8) out

/-- The result of ADIW (R124). -/
def adiwResult (a : Word) (k : BitVec 6) : Word := BitVec.ofNat 16 (a.toNat + k.toNat)

/-- Flags of ADIW (R124). -/
def adiwFlags (sreg : Byte) (a : Word) (k : BitVec 6) : Byte :=
  let r := adiwResult a k
  sregSVNZC sreg (!a.msb && r.msb) r.msb (r == 0#16) (decide (a.toNat + k.toNat > 65535))

/-- The result of SBIW (R124). -/
def sbiwResult (a : Word) (k : BitVec 6) : Word := BitVec.ofInt 16 ((a.toNat : Int) - (k.toNat : Int))

/-- Flags of SBIW (R124). -/
def sbiwFlags (sreg : Byte) (a : Word) (k : BitVec 6) : Byte :=
  let r := sbiwResult a k
  sregSVNZC sreg (a.msb && !r.msb) r.msb (r == 0#16) (decide (a.toNat < k.toNat))

/-- The product of two integers as 16 bits (R125: `P16`). -/
def product16 (a b : Int) : Word := BitVec.ofInt 16 (a * b)

/-- The fractional result `(P16 << 1) mod 65536` (R125). -/
def fractional (p : Word) : Word := BitVec.ofNat 16 (p.toNat * 2)

/-- Flags of a multiply: C is bit 15 of the product before any shift, Z that of the 16-bit result (R125). -/
def mulFlags (sreg : Byte) (p result : Word) : Byte := sregZC sreg (result == 0#16) p.msb

end Sys2Proof.Machine
end

