-- ==== Sys2Proof/Config.lean ====
section
/-! DEFINITION. The parameters of the model (R4, R9) and its free values (R66, R345, R340). A machine's `Config` is
carried in `Machine.State` and never written (log entry 1). -/

namespace Sys2Proof

/-- `CORE`: the instruction listing the device implements, eleven values (R4). -/
inductive CoreKind where
  | at90s1200 | attiny1x | at90s | atmega603 | atmega103 | atmega8xxx | atmega16x | at94kxx
  | atmega323 | atmega128 | avr6
  deriving DecidableEq, Repr

/-- `SLEEP_MODEL` (R301). -/
inductive SleepModel where
  | refuse | wait | nop
  deriving DecidableEq, Repr

/-- `BREAK_MODEL` (R303). -/
inductive BreakModel where
  | refuse | stop | nop
  deriving DecidableEq, Repr

/-- `SPM_MODEL` (R247). -/
inductive SpmModel where
  | refuse | literal
  deriving DecidableEq, Repr

/-- The parameters of R9 that the spec leaves to the device; `HAS_SP`, `HAS_RAMPZ`, `HAS_EIND` and `RET_BYTES` are
computed from them (Machine/Cores.lean). -/
structure Config where
  /-- `CORE` -/
  core : CoreKind
  /-- `FLASH_WORDS`, 1 .. 2^22 -/
  flashWords : Nat
  /-- `PC_BITS`, at most 22, at most 16 unless `CORE = AVR6` -/
  pcBits : Nat
  /-- `SRAM_END`, the last data address of regular data memory; 0x5F means no SRAM -/
  sramEnd : Nat
  /-- `HW_STACK_DEPTH` -/
  hwStackDepth : Nat
  /-- `N_VECTORS`, RESET among them -/
  nVectors : Nat
  /-- `VECTOR_STRIDE`, program words per vector -/
  vectorStride : Nat
  sleepModel : SleepModel
  breakModel : BreakModel
  spmModel : SpmModel
  deriving DecidableEq, Repr

/-- The n-th free byte of a run: what a peripheral answers (R66), what an unwritten SRAM byte reads as (R345), what a
register holds after a later reset (R340). Nothing is known of any of its values (log entries 6, 7, 10). -/
opaque Config.freeByte : Nat → BitVec 8

end Sys2Proof
end

