-- ==== Sys2Proof/Syntax.lean ====
section
/-! DEFINITION. The instructions: one constructor per row of spec/opcode_table.json, in the table's order (R113). The
45 alias rows (R105) are constructors too, since no spec/index.json takes them out of the core; the decoder never yields
one (R94). Operands are the assembled values of R95 to R104: register numbers, constants of the field's width, signed
offsets as two's complement fields, `b` for the operands b and s. What of them an encoding cannot hold is refused by
`Instr.wellFormed`. -/

namespace Sys2Proof

/-- One listing line of the source each (R4, R5, R113). -/
inductive Instr where
  -- arithmetic and logic (R128 to R147)
  /-- ADD Rd,Rr (R128) -/
  | add (d r : Reg)
  /-- ADC Rd,Rr (R129) -/
  | adc (d r : Reg)
  /-- SUB Rd,Rr (R130) -/
  | sub (d r : Reg)
  /-- SUBI Rd,K (R131) -/
  | subi (d : Reg) (k : Byte)
  /-- SBC Rd,Rr (R132) -/
  | sbc (d r : Reg)
  /-- SBCI Rd,K (R133) -/
  | sbci (d : Reg) (k : Byte)
  /-- AND Rd,Rr (R134) -/
  | and (d r : Reg)
  /-- ANDI Rd,K (R135) -/
  | andi (d : Reg) (k : Byte)
  /-- OR Rd,Rr (R136) -/
  | or (d r : Reg)
  /-- ORI Rd,K (R137) -/
  | ori (d : Reg) (k : Byte)
  /-- EOR Rd,Rr (R138) -/
  | eor (d r : Reg)
  /-- COM Rd (R139) -/
  | com (d : Reg)
  /-- NEG Rd (R140) -/
  | neg (d : Reg)
  /-- SBR Rd,K (R141), alias of ORI Rd,K -/
  | sbr (d : Reg) (k : Byte)
  /-- CBR Rd,K (R142), alias of ANDI Rd,(0xFF - K) -/
  | cbr (d : Reg) (k : Byte)
  /-- INC Rd (R143) -/
  | inc (d : Reg)
  /-- DEC Rd (R144) -/
  | dec (d : Reg)
  /-- TST Rd (R145), alias of AND Rd,Rd -/
  | tst (d : Reg)
  /-- CLR Rd (R146), alias of EOR Rd,Rd -/
  | clr (d : Reg)
  /-- SER Rd (R147), alias of LDI Rd,0xFF -/
  | ser (d : Reg)
  -- branch (R163 to R194)
  /-- RJMP k (R163) -/
  | rjmp (k : BitVec 12)
  /-- RCALL k (R164) -/
  | rcall (k : BitVec 12)
  /-- RET (R165) -/
  | ret
  /-- RETI (R166) -/
  | reti
  /-- CPSE Rd,Rr (R167) -/
  | cpse (d r : Reg)
  /-- CP Rd,Rr (R168) -/
  | cp (d r : Reg)
  /-- CPC Rd,Rr (R169) -/
  | cpc (d r : Reg)
  /-- CPI Rd,K (R170) -/
  | cpi (d : Reg) (k : Byte)
  /-- SBRC Rr,b (R171) -/
  | sbrc (r : Reg) (b : Fin 8)
  /-- SBRS Rr,b (R172) -/
  | sbrs (r : Reg) (b : Fin 8)
  /-- SBIC P,b (R173) -/
  | sbic (p : BitVec 5) (b : Fin 8)
  /-- SBIS P,b (R174) -/
  | sbis (p : BitVec 5) (b : Fin 8)
  /-- BRBS s,k (R175) -/
  | brbs (b : Fin 8) (k : BitVec 7)
  /-- BRBC s,k (R176) -/
  | brbc (b : Fin 8) (k : BitVec 7)
  /-- BREQ k (R177), alias of BRBS 1,k -/
  | breq (k : BitVec 7)
  /-- BRNE k (R178), alias of BRBC 1,k -/
  | brne (k : BitVec 7)
  /-- BRCS k (R179), alias of BRBS 0,k -/
  | brcs (k : BitVec 7)
  /-- BRCC k (R180), alias of BRBC 0,k -/
  | brcc (k : BitVec 7)
  /-- BRSH k (R181), alias of BRBC 0,k -/
  | brsh (k : BitVec 7)
  /-- BRLO k (R182), alias of BRBS 0,k -/
  | brlo (k : BitVec 7)
  /-- BRMI k (R183), alias of BRBS 2,k -/
  | brmi (k : BitVec 7)
  /-- BRPL k (R184), alias of BRBC 2,k -/
  | brpl (k : BitVec 7)
  /-- BRGE k (R185), alias of BRBC 4,k -/
  | brge (k : BitVec 7)
  /-- BRLT k (R186), alias of BRBS 4,k -/
  | brlt (k : BitVec 7)
  /-- BRHS k (R187), alias of BRBS 5,k -/
  | brhs (k : BitVec 7)
  /-- BRHC k (R188), alias of BRBC 5,k -/
  | brhc (k : BitVec 7)
  /-- BRTS k (R189), alias of BRBS 6,k -/
  | brts (k : BitVec 7)
  /-- BRTC k (R190), alias of BRBC 6,k -/
  | brtc (k : BitVec 7)
  /-- BRVS k (R191), alias of BRBS 3,k -/
  | brvs (k : BitVec 7)
  /-- BRVC k (R192), alias of BRBC 3,k -/
  | brvc (k : BitVec 7)
  /-- BRIE k (R193), alias of BRBS 7,k -/
  | brie (k : BitVec 7)
  /-- BRID k (R194), alias of BRBC 7,k -/
  | brid (k : BitVec 7)
  -- data transfer of the base listing (R212 to R217)
  /-- MOV Rd,Rr (R212) -/
  | mov (d r : Reg)
  /-- LDI Rd,K (R213) -/
  | ldi (d : Reg) (k : Byte)
  /-- LD Rd,Z (R214), alias of LDD Rd,Z+0 -/
  | ldZ (d : Reg)
  /-- ST Z,Rr (R215), alias of STD Z+0,Rr -/
  | stZ (r : Reg)
  /-- IN Rd,P (R216) -/
  | inIo (d : Reg) (p : BitVec 6)
  /-- OUT P,Rr (R217) -/
  | outIo (p : BitVec 6) (r : Reg)
  -- bit and bit-test (R260 to R287)
  /-- SBI P,b (R260) -/
  | sbi (p : BitVec 5) (b : Fin 8)
  /-- CBI P,b (R261) -/
  | cbi (p : BitVec 5) (b : Fin 8)
  /-- LSL Rd (R262), alias of ADD Rd,Rd -/
  | lsl (d : Reg)
  /-- LSR Rd (R263) -/
  | lsr (d : Reg)
  /-- ROL Rd (R264), alias of ADC Rd,Rd -/
  | rol (d : Reg)
  /-- ROR Rd (R265) -/
  | ror (d : Reg)
  /-- ASR Rd (R266) -/
  | asr (d : Reg)
  /-- SWAP Rd (R267) -/
  | swap (d : Reg)
  /-- BSET s (R268) -/
  | bset (b : Fin 8)
  /-- BCLR s (R269) -/
  | bclr (b : Fin 8)
  /-- BST Rr,b (R270) -/
  | bst (r : Reg) (b : Fin 8)
  /-- BLD Rd,b (R271) -/
  | bld (d : Reg) (b : Fin 8)
  /-- SEC (R272), alias of BSET 0 -/
  | sec
  /-- CLC (R273), alias of BCLR 0 -/
  | clc
  /-- SEN (R274), alias of BSET 2 -/
  | sen
  /-- CLN (R275), alias of BCLR 2 -/
  | cln
  /-- SEZ (R276), alias of BSET 1 -/
  | sez
  /-- CLZ (R277), alias of BCLR 1 -/
  | clz
  /-- SEI (R278), alias of BSET 7 -/
  | sei
  /-- CLI (R279), alias of BCLR 7 -/
  | cli
  /-- SES (R280), alias of BSET 4 -/
  | ses
  /-- CLS (R281), alias of BCLR 4 -/
  | cls
  /-- SEV (R282), alias of BSET 3 -/
  | sev
  /-- CLV (R283), alias of BCLR 3 -/
  | clv
  /-- SET (R284), alias of BSET 6 -/
  | setT
  /-- CLT (R285), alias of BCLR 6 -/
  | clt
  /-- SEH (R286), alias of BSET 5 -/
  | seh
  /-- CLH (R287), alias of BCLR 5 -/
  | clh
  -- MCU control (R300 to R302)
  /-- NOP (R300) -/
  | nop
  /-- SLEEP (R301) -/
  | sleep
  /-- WDR (R302) -/
  | wdr
  -- lines new in later listings (R4)
  /-- LPM (R218) -/
  | lpm
  /-- ADIW Rd,K (R148) -/
  | adiw (d : Reg) (k : BitVec 6)
  /-- SBIW Rd,K (R149) -/
  | sbiw (d : Reg) (k : BitVec 6)
  /-- IJMP (R195) -/
  | ijmp
  /-- ICALL (R196) -/
  | icall
  /-- LDS Rd,k (R219) -/
  | lds (d : Reg) (k : Word)
  /-- LD Rd,X (R220) -/
  | ldX (d : Reg)
  /-- LD Rd,X+ (R221) -/
  | ldXInc (d : Reg)
  /-- LD Rd,-X (R222) -/
  | ldXDec (d : Reg)
  /-- LD Rd,Y (R223), alias of LDD Rd,Y+0 -/
  | ldY (d : Reg)
  /-- LD Rd,Y+ (R224) -/
  | ldYInc (d : Reg)
  /-- LD Rd,-Y (R225) -/
  | ldYDec (d : Reg)
  /-- LDD Rd,Y+q (R226) -/
  | lddY (d : Reg) (q : BitVec 6)
  /-- LD Rd,Z+ (R227) -/
  | ldZInc (d : Reg)
  /-- LD Rd,-Z (R228) -/
  | ldZDec (d : Reg)
  /-- LDD Rd,Z+q (R229) -/
  | lddZ (d : Reg) (q : BitVec 6)
  /-- STS k,Rr (R230) -/
  | sts (k : Word) (r : Reg)
  /-- ST X,Rr (R231) -/
  | stX (r : Reg)
  /-- ST X+,Rr (R232) -/
  | stXInc (r : Reg)
  /-- ST -X,Rr (R233) -/
  | stXDec (r : Reg)
  /-- ST Y,Rr (R234), alias of STD Y+0,Rr -/
  | stY (r : Reg)
  /-- ST Y+,Rr (R235) -/
  | stYInc (r : Reg)
  /-- ST -Y,Rr (R236) -/
  | stYDec (r : Reg)
  /-- STD Y+q,Rr (R237) -/
  | stdY (q : BitVec 6) (r : Reg)
  /-- ST Z+,Rr (R238) -/
  | stZInc (r : Reg)
  /-- ST -Z,Rr (R239) -/
  | stZDec (r : Reg)
  /-- STD Z+q,Rr (R240) -/
  | stdZ (q : BitVec 6) (r : Reg)
  /-- PUSH Rr (R241) -/
  | push (r : Reg)
  /-- POP Rd (R242) -/
  | pop (d : Reg)
  /-- JMP k (R197) -/
  | jmp (k : BitVec 22)
  /-- CALL k (R198) -/
  | call (k : BitVec 22)
  /-- ELPM (R243) -/
  | elpm
  /-- MUL Rd,Rr (R150) -/
  | mul (d r : Reg)
  /-- MULS Rd,Rr (R151) -/
  | muls (d r : Reg)
  /-- MULSU Rd,Rr (R152) -/
  | mulsu (d r : Reg)
  /-- FMUL Rd,Rr (R153) -/
  | fmul (d r : Reg)
  /-- FMULS Rd,Rr (R154) -/
  | fmuls (d r : Reg)
  /-- FMULSU Rd,Rr (R155) -/
  | fmulsu (d r : Reg)
  /-- MOVW Rd,Rr (R244) -/
  | movw (d r : Reg)
  /-- LPM Rd,Z (R245) -/
  | lpmZ (d : Reg)
  /-- LPM Rd,Z+ (R246) -/
  | lpmZInc (d : Reg)
  /-- SPM (R247) -/
  | spm
  /-- BREAK (R303) -/
  | brk
  /-- ELPM Rd,Z (R248) -/
  | elpmZ (d : Reg)
  /-- ELPM Rd,Z+ (R249) -/
  | elpmZInc (d : Reg)
  /-- EIJMP (R199) -/
  | eijmp
  /-- EICALL (R200) -/
  | eicall
  deriving DecidableEq, Repr

end Sys2Proof
end

