-- ==== Sys2Proof/WellFormed.lean ====
section
/-! DEFINITION. The operand ranges that no encoding goes outside of (R25, R96, R103, R112): the immediate forms reach R16..R31,
MULS R16..R31, MULSU and the FMUL forms R16..R23, ADIW and SBIW the pairs at R24, R26, R28, R30, MOVW even registers. Every
other operand's type is exactly its field. -/

namespace Sys2Proof

/-- R16..R31 (R96, R103). -/
def Reg.isUpper (d : Reg) : Bool := decide (16 ≤ d.val)

/-- R16..R23 (R103, format MUL3). -/
def Reg.isMul3 (d : Reg) : Bool := decide (16 ≤ d.val ∧ d.val ≤ 23)

/-- R24, R26, R28, R30 (R103, format IW). -/
def Reg.isWordPair (d : Reg) : Bool := decide (24 ≤ d.val ∧ d.val % 2 = 0)

/-- An even register (R103, format MOVW). -/
def Reg.isEven (d : Reg) : Bool := decide (d.val % 2 = 0)

/-- The instruction has an encoding (R112: "An operand outside its range has no encoding"). -/
def Instr.wellFormed : Instr → Bool
  | .subi d _ => d.isUpper
  | .sbci d _ => d.isUpper
  | .andi d _ => d.isUpper
  | .ori d _ => d.isUpper
  | .sbr d _ => d.isUpper
  | .cbr d _ => d.isUpper
  | .ser d => d.isUpper
  | .cpi d _ => d.isUpper
  | .ldi d _ => d.isUpper
  | .adiw d _ => d.isWordPair
  | .sbiw d _ => d.isWordPair
  | .muls d r => d.isUpper && r.isUpper
  | .mulsu d r => d.isMul3 && r.isMul3
  | .fmul d r => d.isMul3 && r.isMul3
  | .fmuls d r => d.isMul3 && r.isMul3
  | .fmulsu d r => d.isMul3 && r.isMul3
  | .movw d r => d.isEven && r.isEven
  | .add _ _ | .adc _ _ | .sub _ _ | .sbc _ _ | .and _ _ | .or _ _ | .eor _ _ | .com _ | .neg _
  | .inc _ | .dec _ | .tst _ | .clr _ | .rjmp _ | .rcall _ | .ret | .reti | .cpse _ _ | .cp _ _
  | .cpc _ _ | .sbrc _ _ | .sbrs _ _ | .sbic _ _ | .sbis _ _ | .brbs _ _ | .brbc _ _ | .breq _
  | .brne _ | .brcs _ | .brcc _ | .brsh _ | .brlo _ | .brmi _ | .brpl _ | .brge _ | .brlt _ | .brhs _
  | .brhc _ | .brts _ | .brtc _ | .brvs _ | .brvc _ | .brie _ | .brid _ | .mov _ _ | .ldZ _ | .stZ _
  | .inIo _ _ | .outIo _ _ | .sbi _ _ | .cbi _ _ | .lsl _ | .lsr _ | .rol _ | .ror _ | .asr _
  | .swap _ | .bset _ | .bclr _ | .bst _ _ | .bld _ _ | .sec | .clc | .sen | .cln | .sez | .clz | .sei
  | .cli | .ses | .cls | .sev | .clv | .setT | .clt | .seh | .clh | .nop | .sleep | .wdr | .lpm
  | .ijmp | .icall | .lds _ _ | .ldX _ | .ldXInc _ | .ldXDec _ | .ldY _ | .ldYInc _ | .ldYDec _
  | .lddY _ _ | .ldZInc _ | .ldZDec _ | .lddZ _ _ | .sts _ _ | .stX _ | .stXInc _ | .stXDec _ | .stY _
  | .stYInc _ | .stYDec _ | .stdY _ _ | .stZInc _ | .stZDec _ | .stdZ _ _ | .push _ | .pop _ | .jmp _
  | .call _ | .elpm | .mul _ _ | .lpmZ _ | .lpmZInc _ | .spm | .brk | .elpmZ _ | .elpmZInc _ | .eijmp
  | .eicall => true

end Sys2Proof
end

