-- ==== Sys2Proof/Decode.lean ====
section
/-! DEFINITION. Decoding (R90 to R94, R107), operand assembly (R95 to R104), the expansion of the alias rows (R105, R112), and an
encoder written from the same encodings. Decoding is total: bytes that are no instruction are rejected by name. -/

namespace Sys2Proof

/-! ### Byte order (R70): a program image holds the low byte of a word first. -/

/-- Low byte of a word. -/
def loByte (w : Word) : Byte := w.extractLsb' 0 8

/-- High byte of a word. -/
def hiByte (w : Word) : Byte := w.extractLsb' 8 8

/-- `hi : lo` (R12). -/
def wordOfBytes (lo hi : Byte) : Word := hi ++ lo

/-! ### Fields of a first word (R10, R95 to R104) -/

/-- `w[hi:lo]` of R10, as a number. -/
def bits (w : Word) (hi lo : Nat) : Nat := w.toNat / 2 ^ lo % 2 ^ (hi + 1 - lo)

/-- `d` or `r` of `w[8:4]` (R95, R97 to R100). -/
def regD (w : Word) : Reg := Fin.ofNat 32 (bits w 8 4)

/-- `r = w[9] : w[3:0]` (R95). -/
def regR (w : Word) : Reg := Fin.ofNat 32 (bits w 9 9 * 16 + bits w 3 0)

/-- `d = 16 + w[7:4]` (R96, R103 format MULS). -/
def regDUpper (w : Word) : Reg := Fin.ofNat 32 (16 + bits w 7 4)

/-- `r = 16 + w[3:0]` (R103, format MULS). -/
def regRUpper (w : Word) : Reg := Fin.ofNat 32 (16 + bits w 3 0)

/-- `d = 16 + w[6:4]` (R103, format MUL3). -/
def regDMul3 (w : Word) : Reg := Fin.ofNat 32 (16 + bits w 6 4)

/-- `r = 16 + w[2:0]` (R103, format MUL3). -/
def regRMul3 (w : Word) : Reg := Fin.ofNat 32 (16 + bits w 2 0)

/-- `d = 2 * w[7:4]` (R103, format MOVW). -/
def regDEven (w : Word) : Reg := Fin.ofNat 32 (2 * bits w 7 4)

/-- `r = 2 * w[3:0]` (R103, format MOVW). -/
def regREven (w : Word) : Reg := Fin.ofNat 32 (2 * bits w 3 0)

/-- `d = 24 + 2 * w[5:4]` (R103, format IW). -/
def regDPair (w : Word) : Reg := Fin.ofNat 32 (24 + 2 * bits w 5 4)

/-- `K = w[11:8] : w[3:0]` (R96). -/
def immK (w : Word) : Byte := BitVec.ofNat 8 (bits w 11 8 * 16 + bits w 3 0)

/-- `K = w[7:6] : w[3:0]` (R103, format IW). -/
def wordK (w : Word) : BitVec 6 := BitVec.ofNat 6 (bits w 7 6 * 16 + bits w 3 0)

/-- `q = w[13] : w[11:10] : w[2:0]` (R98). -/
def dispQ (w : Word) : BitVec 6 := BitVec.ofNat 6 (bits w 13 13 * 32 + bits w 11 10 * 8 + bits w 2 0)

/-- `P = w[10:9] : w[3:0]` (R99, format IO). -/
def ioA6 (w : Word) : BitVec 6 := BitVec.ofNat 6 (bits w 10 9 * 16 + bits w 3 0)

/-- `P = w[7:3]` (R99, format IOB). -/
def ioA5 (w : Word) : BitVec 5 := BitVec.ofNat 5 (bits w 7 3)

/-- `b` or `s` of `w[2:0]` (R99 to R101). -/
def bitB (w : Word) : Fin 8 := Fin.ofNat 8 (bits w 2 0)

/-- `s = w[6:4]` (R102). -/
def sregBit (w : Word) : Fin 8 := Fin.ofNat 8 (bits w 6 4)

/-- The field of `k = sext_7(w[9:3])` (R101). -/
def relK7 (w : Word) : BitVec 7 := BitVec.ofNat 7 (bits w 9 3)

/-- The field of `k = sext_12(w[11:0])` (R101). -/
def relK12 (w : Word) : BitVec 12 := BitVec.ofNat 12 (bits w 11 0)

/-- `k = w[8:4] : w[0] : w1[15:0]` (R104). -/
def farK (w w1 : Word) : BitVec 22 :=
  BitVec.ofNat 22 ((bits w 8 4 * 2 + bits w 0 0) * 65536 + w1.toNat)

/-! ### The opcode map: the 91 canonical rows of spec/opcode_table.json (R94, R106) -/

/-- A canonical row: the word matches when `w & mask = mtch` (R94); `build` assembles the instruction from the first word and
the second (read only by two-word rows). -/
structure DecodeRow where
  mask : Nat
  mtch : Nat
  build : Word → Word → Instr

/-- `w & mask = match` (R94). -/
def DecodeRow.hits (row : DecodeRow) (w : Word) : Bool := w.toNat &&& row.mask == row.mtch

/-- Arithmetic, logic and branch rows of the base listing. -/
def decodeTableAluBranch : List DecodeRow :=
  [
    ⟨0xFC00, 0x0C00, fun w _ => .add (regD w) (regR w)⟩,
    ⟨0xFC00, 0x1C00, fun w _ => .adc (regD w) (regR w)⟩,
    ⟨0xFC00, 0x1800, fun w _ => .sub (regD w) (regR w)⟩,
    ⟨0xF000, 0x5000, fun w _ => .subi (regDUpper w) (immK w)⟩,
    ⟨0xFC00, 0x0800, fun w _ => .sbc (regD w) (regR w)⟩,
    ⟨0xF000, 0x4000, fun w _ => .sbci (regDUpper w) (immK w)⟩,
    ⟨0xFC00, 0x2000, fun w _ => .and (regD w) (regR w)⟩,
    ⟨0xF000, 0x7000, fun w _ => .andi (regDUpper w) (immK w)⟩,
    ⟨0xFC00, 0x2800, fun w _ => .or (regD w) (regR w)⟩,
    ⟨0xF000, 0x6000, fun w _ => .ori (regDUpper w) (immK w)⟩,
    ⟨0xFC00, 0x2400, fun w _ => .eor (regD w) (regR w)⟩,
    ⟨0xFE0F, 0x9400, fun w _ => .com (regD w)⟩,
    ⟨0xFE0F, 0x9401, fun w _ => .neg (regD w)⟩,
    ⟨0xFE0F, 0x9403, fun w _ => .inc (regD w)⟩,
    ⟨0xFE0F, 0x940A, fun w _ => .dec (regD w)⟩,
    ⟨0xF000, 0xC000, fun w _ => .rjmp (relK12 w)⟩,
    ⟨0xF000, 0xD000, fun w _ => .rcall (relK12 w)⟩,
    ⟨0xFFFF, 0x9508, fun _ _ => .ret⟩,
    ⟨0xFFFF, 0x9518, fun _ _ => .reti⟩,
    ⟨0xFC00, 0x1000, fun w _ => .cpse (regD w) (regR w)⟩,
    ⟨0xFC00, 0x1400, fun w _ => .cp (regD w) (regR w)⟩,
    ⟨0xFC00, 0x0400, fun w _ => .cpc (regD w) (regR w)⟩,
    ⟨0xF000, 0x3000, fun w _ => .cpi (regDUpper w) (immK w)⟩,
    ⟨0xFE08, 0xFC00, fun w _ => .sbrc (regD w) (bitB w)⟩,
    ⟨0xFE08, 0xFE00, fun w _ => .sbrs (regD w) (bitB w)⟩,
    ⟨0xFF00, 0x9900, fun w _ => .sbic (ioA5 w) (bitB w)⟩,
    ⟨0xFF00, 0x9B00, fun w _ => .sbis (ioA5 w) (bitB w)⟩,
    ⟨0xFC00, 0xF000, fun w _ => .brbs (bitB w) (relK7 w)⟩,
    ⟨0xFC00, 0xF400, fun w _ => .brbc (bitB w) (relK7 w)⟩ ]

/-- Data transfer, bit and MCU control rows of the base listing. -/
def decodeTableMoveBit : List DecodeRow :=
  [
    ⟨0xFC00, 0x2C00, fun w _ => .mov (regD w) (regR w)⟩,
    ⟨0xF000, 0xE000, fun w _ => .ldi (regDUpper w) (immK w)⟩,
    ⟨0xF800, 0xB000, fun w _ => .inIo (regD w) (ioA6 w)⟩,
    ⟨0xF800, 0xB800, fun w _ => .outIo (ioA6 w) (regD w)⟩,
    ⟨0xFF00, 0x9A00, fun w _ => .sbi (ioA5 w) (bitB w)⟩,
    ⟨0xFF00, 0x9800, fun w _ => .cbi (ioA5 w) (bitB w)⟩,
    ⟨0xFE0F, 0x9406, fun w _ => .lsr (regD w)⟩,
    ⟨0xFE0F, 0x9407, fun w _ => .ror (regD w)⟩,
    ⟨0xFE0F, 0x9405, fun w _ => .asr (regD w)⟩,
    ⟨0xFE0F, 0x9402, fun w _ => .swap (regD w)⟩,
    ⟨0xFF8F, 0x9408, fun w _ => .bset (sregBit w)⟩,
    ⟨0xFF8F, 0x9488, fun w _ => .bclr (sregBit w)⟩,
    ⟨0xFE08, 0xFA00, fun w _ => .bst (regD w) (bitB w)⟩,
    ⟨0xFE08, 0xF800, fun w _ => .bld (regD w) (bitB w)⟩,
    ⟨0xFFFF, 0x0000, fun _ _ => .nop⟩,
    ⟨0xFFFF, 0x9588, fun _ _ => .sleep⟩,
    ⟨0xFFFF, 0x95A8, fun _ _ => .wdr⟩ ]

/-- The rows new in ATtiny1x, AT90S, ATmega603 and ATmega103. -/
def decodeTableAvr2 : List DecodeRow :=
  [
    ⟨0xFFFF, 0x95C8, fun _ _ => .lpm⟩,
    ⟨0xFF00, 0x9600, fun w _ => .adiw (regDPair w) (wordK w)⟩,
    ⟨0xFF00, 0x9700, fun w _ => .sbiw (regDPair w) (wordK w)⟩,
    ⟨0xFFFF, 0x9409, fun _ _ => .ijmp⟩,
    ⟨0xFFFF, 0x9509, fun _ _ => .icall⟩,
    ⟨0xFE0F, 0x9000, fun w w1 => .lds (regD w) w1⟩,
    ⟨0xFE0F, 0x900C, fun w _ => .ldX (regD w)⟩,
    ⟨0xFE0F, 0x900D, fun w _ => .ldXInc (regD w)⟩,
    ⟨0xFE0F, 0x900E, fun w _ => .ldXDec (regD w)⟩,
    ⟨0xFE0F, 0x9009, fun w _ => .ldYInc (regD w)⟩,
    ⟨0xFE0F, 0x900A, fun w _ => .ldYDec (regD w)⟩,
    ⟨0xD208, 0x8008, fun w _ => .lddY (regD w) (dispQ w)⟩,
    ⟨0xFE0F, 0x9001, fun w _ => .ldZInc (regD w)⟩,
    ⟨0xFE0F, 0x9002, fun w _ => .ldZDec (regD w)⟩,
    ⟨0xD208, 0x8000, fun w _ => .lddZ (regD w) (dispQ w)⟩,
    ⟨0xFE0F, 0x9200, fun w w1 => .sts w1 (regD w)⟩,
    ⟨0xFE0F, 0x920C, fun w _ => .stX (regD w)⟩,
    ⟨0xFE0F, 0x920D, fun w _ => .stXInc (regD w)⟩,
    ⟨0xFE0F, 0x920E, fun w _ => .stXDec (regD w)⟩,
    ⟨0xFE0F, 0x9209, fun w _ => .stYInc (regD w)⟩,
    ⟨0xFE0F, 0x920A, fun w _ => .stYDec (regD w)⟩,
    ⟨0xD208, 0x8208, fun w _ => .stdY (dispQ w) (regD w)⟩,
    ⟨0xFE0F, 0x9201, fun w _ => .stZInc (regD w)⟩,
    ⟨0xFE0F, 0x9202, fun w _ => .stZDec (regD w)⟩,
    ⟨0xD208, 0x8200, fun w _ => .stdZ (dispQ w) (regD w)⟩,
    ⟨0xFE0F, 0x920F, fun w _ => .push (regD w)⟩,
    ⟨0xFE0F, 0x900F, fun w _ => .pop (regD w)⟩,
    ⟨0xFE0E, 0x940C, fun w w1 => .jmp (farK w w1)⟩,
    ⟨0xFE0E, 0x940E, fun w w1 => .call (farK w w1)⟩,
    ⟨0xFFFF, 0x95D8, fun _ _ => .elpm⟩ ]

/-- The rows new in ATmega8xxx, AT94Kxx, ATmega323, ATmega128 and AVR6. -/
def decodeTableAvr4 : List DecodeRow :=
  [
    ⟨0xFC00, 0x9C00, fun w _ => .mul (regD w) (regR w)⟩,
    ⟨0xFF00, 0x0200, fun w _ => .muls (regDUpper w) (regRUpper w)⟩,
    ⟨0xFF88, 0x0300, fun w _ => .mulsu (regDMul3 w) (regRMul3 w)⟩,
    ⟨0xFF88, 0x0308, fun w _ => .fmul (regDMul3 w) (regRMul3 w)⟩,
    ⟨0xFF88, 0x0380, fun w _ => .fmuls (regDMul3 w) (regRMul3 w)⟩,
    ⟨0xFF88, 0x0388, fun w _ => .fmulsu (regDMul3 w) (regRMul3 w)⟩,
    ⟨0xFF00, 0x0100, fun w _ => .movw (regDEven w) (regREven w)⟩,
    ⟨0xFE0F, 0x9004, fun w _ => .lpmZ (regD w)⟩,
    ⟨0xFE0F, 0x9005, fun w _ => .lpmZInc (regD w)⟩,
    ⟨0xFFFF, 0x95E8, fun _ _ => .spm⟩,
    ⟨0xFFFF, 0x9598, fun _ _ => .brk⟩,
    ⟨0xFE0F, 0x9006, fun w _ => .elpmZ (regD w)⟩,
    ⟨0xFE0F, 0x9007, fun w _ => .elpmZInc (regD w)⟩,
    ⟨0xFFFF, 0x9419, fun _ _ => .eijmp⟩,
    ⟨0xFFFF, 0x9519, fun _ _ => .eicall⟩ ]

/-- All 91 canonical rows. -/
def decodeTable : List DecodeRow :=
  decodeTableAluBranch ++ decodeTableMoveBit ++ decodeTableAvr2 ++ decodeTableAvr4

/-- The first row that a word matches; the rows are pairwise disjoint (R94), so there is at most one. -/
def findRow : List DecodeRow → Word → Option DecodeRow
  | [], _ => none
  | row :: rows, w => if row.hits w then some row else findRow rows w

/-- The instruction of a first word and the word after it; none for a reserved first word (R94, R107). -/
def decodeWords (w w1 : Word) : Option Instr :=
  match findRow decodeTable w with
  | some row => some (row.build w w1)
  | none => none

/-- LDS, STS, JMP and CALL, the two-word patterns (R92, R93). -/
def isLongWord (w : Word) : Bool :=
  w.toNat &&& 0xFE0F == 0x9000 || w.toNat &&& 0xFE0F == 0x9200 ||
    w.toNat &&& 0xFE0E == 0x940C || w.toNat &&& 0xFE0E == 0x940E

/-- Why bytes are no instruction. -/
inductive DecodeError where
  /-- fewer bytes than the instruction has -/
  | truncated
  /-- the first word matches no row (R107) -/
  | reserved (w : Word)
  deriving DecidableEq, Repr

/-- The first instruction of a little-endian byte image (R70) and the bytes after it. -/
def decodeBytes : List Byte → Except DecodeError (Instr × List Byte)
  | lo :: hi :: rest =>
    let w := wordOfBytes lo hi
    if isLongWord w then
      match rest with
      | lo1 :: hi1 :: rest1 =>
        match decodeWords w (wordOfBytes lo1 hi1) with
        | some i => .ok (i, rest1)
        | none => .error (.reserved w)
      | [_] => .error .truncated
      | [] => .error .truncated
    else
      match decodeWords w 0 with
      | some i => .ok (i, rest)
      | none => .error (.reserved w)
  | [_] => .error .truncated
  | [] => .error .truncated

/-- The longest instruction's four bytes, from the table's numbering of an instruction's bits (bit 0 the least significant bit of
the first word, R113); every bit above `nbits` is 0. -/
def tableBytes (nbits w : Nat) : List Byte :=
  let v := w % 2 ^ nbits
  [BitVec.ofNat 8 v, BitVec.ofNat 8 (v / 2 ^ 8), BitVec.ofNat 8 (v / 2 ^ 16), BitVec.ofNat 8 (v / 2 ^ 24)]

/-- The instruction the decoder reads from an instruction whose bits are `w`, numbered as spec/opcode_table.json numbers them. -/
def decodeTableWord (nbits w : Nat) : Option Instr :=
  match decodeBytes (tableBytes nbits w) with
  | .ok p => some p.1
  | .error _ => none

/-! ### Expansion of the alias rows (R105, R112) -/

/-- The canonical instruction whose word an alias row spells; a canonical instruction is its own. -/
def Instr.canonical : Instr → Instr
  | .sbr d k => .ori d k
  | .cbr d k => .andi d (~~~k)
  | .tst d => .and d d
  | .clr d => .eor d d
  | .ser d => .ldi d 0xFF#8
  | .breq k => .brbs 1 k
  | .brne k => .brbc 1 k
  | .brcs k => .brbs 0 k
  | .brcc k => .brbc 0 k
  | .brsh k => .brbc 0 k
  | .brlo k => .brbs 0 k
  | .brmi k => .brbs 2 k
  | .brpl k => .brbc 2 k
  | .brge k => .brbc 4 k
  | .brlt k => .brbs 4 k
  | .brhs k => .brbs 5 k
  | .brhc k => .brbc 5 k
  | .brts k => .brbs 6 k
  | .brtc k => .brbc 6 k
  | .brvs k => .brbs 3 k
  | .brvc k => .brbc 3 k
  | .brie k => .brbs 7 k
  | .brid k => .brbc 7 k
  | .ldZ d => .lddZ d 0
  | .stZ r => .stdZ 0 r
  | .lsl d => .add d d
  | .rol d => .adc d d
  | .sec => .bset 0
  | .clc => .bclr 0
  | .sen => .bset 2
  | .cln => .bclr 2
  | .sez => .bset 1
  | .clz => .bclr 1
  | .sei => .bset 7
  | .cli => .bclr 7
  | .ses => .bset 4
  | .cls => .bclr 4
  | .sev => .bset 3
  | .clv => .bclr 3
  | .setT => .bset 6
  | .clt => .bclr 6
  | .seh => .bset 5
  | .clh => .bclr 5
  | .ldY d => .lddY d 0
  | .stY r => .stdY 0 r
  | .add d r => .add d r
  | .adc d r => .adc d r
  | .sub d r => .sub d r
  | .subi d k => .subi d k
  | .sbc d r => .sbc d r
  | .sbci d k => .sbci d k
  | .and d r => .and d r
  | .andi d k => .andi d k
  | .or d r => .or d r
  | .ori d k => .ori d k
  | .eor d r => .eor d r
  | .com d => .com d
  | .neg d => .neg d
  | .inc d => .inc d
  | .dec d => .dec d
  | .rjmp k => .rjmp k
  | .rcall k => .rcall k
  | .ret => .ret
  | .reti => .reti
  | .cpse d r => .cpse d r
  | .cp d r => .cp d r
  | .cpc d r => .cpc d r
  | .cpi d k => .cpi d k
  | .sbrc r b => .sbrc r b
  | .sbrs r b => .sbrs r b
  | .sbic p b => .sbic p b
  | .sbis p b => .sbis p b
  | .brbs b k => .brbs b k
  | .brbc b k => .brbc b k
  | .mov d r => .mov d r
  | .ldi d k => .ldi d k
  | .inIo d p => .inIo d p
  | .outIo p r => .outIo p r
  | .sbi p b => .sbi p b
  | .cbi p b => .cbi p b
  | .lsr d => .lsr d
  | .ror d => .ror d
  | .asr d => .asr d
  | .swap d => .swap d
  | .bset b => .bset b
  | .bclr b => .bclr b
  | .bst r b => .bst r b
  | .bld d b => .bld d b
  | .nop => .nop
  | .sleep => .sleep
  | .wdr => .wdr
  | .lpm => .lpm
  | .adiw d k => .adiw d k
  | .sbiw d k => .sbiw d k
  | .ijmp => .ijmp
  | .icall => .icall
  | .lds d k => .lds d k
  | .ldX d => .ldX d
  | .ldXInc d => .ldXInc d
  | .ldXDec d => .ldXDec d
  | .ldYInc d => .ldYInc d
  | .ldYDec d => .ldYDec d
  | .lddY d q => .lddY d q
  | .ldZInc d => .ldZInc d
  | .ldZDec d => .ldZDec d
  | .lddZ d q => .lddZ d q
  | .sts k r => .sts k r
  | .stX r => .stX r
  | .stXInc r => .stXInc r
  | .stXDec r => .stXDec r
  | .stYInc r => .stYInc r
  | .stYDec r => .stYDec r
  | .stdY q r => .stdY q r
  | .stZInc r => .stZInc r
  | .stZDec r => .stZDec r
  | .stdZ q r => .stdZ q r
  | .push r => .push r
  | .pop d => .pop d
  | .jmp k => .jmp k
  | .call k => .call k
  | .elpm => .elpm
  | .mul d r => .mul d r
  | .muls d r => .muls d r
  | .mulsu d r => .mulsu d r
  | .fmul d r => .fmul d r
  | .fmuls d r => .fmuls d r
  | .fmulsu d r => .fmulsu d r
  | .movw d r => .movw d r
  | .lpmZ d => .lpmZ d
  | .lpmZInc d => .lpmZInc d
  | .spm => .spm
  | .brk => .brk
  | .elpmZ d => .elpmZ d
  | .elpmZInc d => .elpmZInc d
  | .eijmp => .eijmp
  | .eicall => .eicall

/-- `len`: 2 for LDS, STS, JMP and CALL, else 1 (R92). -/
def Instr.len : Instr → Nat
  | .lds _ _ | .sts _ _ | .jmp _ | .call _ => 2
  | .add _ _ | .adc _ _ | .sub _ _ | .subi _ _ | .sbc _ _ | .sbci _ _ | .and _ _ | .andi _ _ | .or _ _
  | .ori _ _ | .eor _ _ | .com _ | .neg _ | .sbr _ _ | .cbr _ _ | .inc _ | .dec _ | .tst _ | .clr _
  | .ser _ | .rjmp _ | .rcall _ | .ret | .reti | .cpse _ _ | .cp _ _ | .cpc _ _ | .cpi _ _ | .sbrc _ _
  | .sbrs _ _ | .sbic _ _ | .sbis _ _ | .brbs _ _ | .brbc _ _ | .breq _ | .brne _ | .brcs _ | .brcc _
  | .brsh _ | .brlo _ | .brmi _ | .brpl _ | .brge _ | .brlt _ | .brhs _ | .brhc _ | .brts _ | .brtc _
  | .brvs _ | .brvc _ | .brie _ | .brid _ | .mov _ _ | .ldi _ _ | .ldZ _ | .stZ _ | .inIo _ _
  | .outIo _ _ | .sbi _ _ | .cbi _ _ | .lsl _ | .lsr _ | .rol _ | .ror _ | .asr _ | .swap _ | .bset _
  | .bclr _ | .bst _ _ | .bld _ _ | .sec | .clc | .sen | .cln | .sez | .clz | .sei | .cli | .ses
  | .cls | .sev | .clv | .setT | .clt | .seh | .clh | .nop | .sleep | .wdr | .lpm | .adiw _ _
  | .sbiw _ _ | .ijmp | .icall | .ldX _ | .ldXInc _ | .ldXDec _ | .ldY _ | .ldYInc _ | .ldYDec _
  | .lddY _ _ | .ldZInc _ | .ldZDec _ | .lddZ _ _ | .stX _ | .stXInc _ | .stXDec _ | .stY _
  | .stYInc _ | .stYDec _ | .stdY _ _ | .stZInc _ | .stZDec _ | .stdZ _ _ | .push _ | .pop _ | .elpm
  | .mul _ _ | .muls _ _ | .mulsu _ _ | .fmul _ _ | .fmuls _ _ | .fmulsu _ _ | .movw _ _ | .lpmZ _
  | .lpmZInc _ | .spm | .brk | .elpmZ _ | .elpmZInc _ | .eijmp | .eicall => 1

/-! ### The encoder, from the encodings of R91 and the operand assembly of R95 to R104 -/

/-- Format RR (R95). -/
def encRR (base : Nat) (d r : Reg) : Word :=
  BitVec.ofNat 16 (base + r.val / 16 * 2 ^ 9 + d.val * 2 ^ 4 + r.val % 16)

/-- Format RI (R96). -/
def encRI (base : Nat) (d : Reg) (k : Byte) : Word :=
  BitVec.ofNat 16 (base + k.toNat / 16 * 2 ^ 8 + (d.val - 16) * 2 ^ 4 + k.toNat % 16)

/-- A register in bits 8..4 (R97): formats R1 and LS. -/
def encD (base : Nat) (d : Reg) : Word := BitVec.ofNat 16 (base + d.val * 2 ^ 4)

/-- SER: LDI's register field with K fixed (R147). -/
def encDUpper (base : Nat) (d : Reg) : Word := BitVec.ofNat 16 (base + (d.val - 16) * 2 ^ 4)

/-- Format LDD (R98). -/
def encLDD (base : Nat) (d : Reg) (q : BitVec 6) : Word :=
  BitVec.ofNat 16 (base + q.toNat / 32 * 2 ^ 13 + q.toNat / 8 % 4 * 2 ^ 10 + d.val * 2 ^ 4 + q.toNat % 8)

/-- Format IO (R99). -/
def encIO (base : Nat) (d : Reg) (p : BitVec 6) : Word :=
  BitVec.ofNat 16 (base + p.toNat / 16 * 2 ^ 9 + d.val * 2 ^ 4 + p.toNat % 16)

/-- Format IOB (R99). -/
def encIOB (base : Nat) (p : BitVec 5) (b : Fin 8) : Word :=
  BitVec.ofNat 16 (base + p.toNat * 2 ^ 3 + b.val)

/-- Format RB (R100). -/
def encRB (base : Nat) (d : Reg) (b : Fin 8) : Word := BitVec.ofNat 16 (base + d.val * 2 ^ 4 + b.val)

/-- Format BR (R101). -/
def encBR (base : Nat) (b : Fin 8) (k : BitVec 7) : Word :=
  BitVec.ofNat 16 (base + k.toNat * 2 ^ 3 + b.val)

/-- Format REL12 (R101). -/
def encRel12 (base : Nat) (k : BitVec 12) : Word := BitVec.ofNat 16 (base + k.toNat)

/-- Format SREG (R102). -/
def encSreg (base : Nat) (b : Fin 8) : Word := BitVec.ofNat 16 (base + b.val * 2 ^ 4)

/-- Format IW (R103). -/
def encIW (base : Nat) (d : Reg) (k : BitVec 6) : Word :=
  BitVec.ofNat 16 (base + k.toNat / 16 * 2 ^ 6 + (d.val - 24) / 2 * 2 ^ 4 + k.toNat % 16)

/-- Format MOVW (R103). -/
def encMovw (base : Nat) (d r : Reg) : Word := BitVec.ofNat 16 (base + d.val / 2 * 2 ^ 4 + r.val / 2)

/-- Format MULS (R103). -/
def encMuls (base : Nat) (d r : Reg) : Word :=
  BitVec.ofNat 16 (base + (d.val - 16) * 2 ^ 4 + (r.val - 16))

/-- Format MUL3 (R103). -/
def encMul3 (base : Nat) (d r : Reg) : Word :=
  BitVec.ofNat 16 (base + (d.val - 16) * 2 ^ 4 + (r.val - 16))

/-- First word of format JMP (R104). -/
def encJmp (base : Nat) (k : BitVec 22) : Word :=
  BitVec.ofNat 16 (base + k.toNat / 2 ^ 17 * 2 ^ 4 + k.toNat / 2 ^ 16 % 2)

/-- The words of a well-formed instruction, first word first; an alias row's from the row's own pattern (R105). -/
def encode : Instr → List Word
  | .add d r => [encRR 0x0C00 d r]
  | .adc d r => [encRR 0x1C00 d r]
  | .sub d r => [encRR 0x1800 d r]
  | .subi d k => [encRI 0x5000 d k]
  | .sbc d r => [encRR 0x0800 d r]
  | .sbci d k => [encRI 0x4000 d k]
  | .and d r => [encRR 0x2000 d r]
  | .andi d k => [encRI 0x7000 d k]
  | .or d r => [encRR 0x2800 d r]
  | .ori d k => [encRI 0x6000 d k]
  | .eor d r => [encRR 0x2400 d r]
  | .com d => [encD 0x9400 d]
  | .neg d => [encD 0x9401 d]
  | .sbr d k => [encRI 0x6000 d k]
  | .cbr d k => [encRI 0x7000 d (~~~k)]
  | .inc d => [encD 0x9403 d]
  | .dec d => [encD 0x940A d]
  | .tst d => [encRR 0x2000 d d]
  | .clr d => [encRR 0x2400 d d]
  | .ser d => [encDUpper 0xEF0F d]
  | .rjmp k => [encRel12 0xC000 k]
  | .rcall k => [encRel12 0xD000 k]
  | .ret => [0x9508#16]
  | .reti => [0x9518#16]
  | .cpse d r => [encRR 0x1000 d r]
  | .cp d r => [encRR 0x1400 d r]
  | .cpc d r => [encRR 0x0400 d r]
  | .cpi d k => [encRI 0x3000 d k]
  | .sbrc r b => [encRB 0xFC00 r b]
  | .sbrs r b => [encRB 0xFE00 r b]
  | .sbic p b => [encIOB 0x9900 p b]
  | .sbis p b => [encIOB 0x9B00 p b]
  | .brbs b k => [encBR 0xF000 b k]
  | .brbc b k => [encBR 0xF400 b k]
  | .breq k => [encBR 0xF001 0 k]
  | .brne k => [encBR 0xF401 0 k]
  | .brcs k => [encBR 0xF000 0 k]
  | .brcc k => [encBR 0xF400 0 k]
  | .brsh k => [encBR 0xF400 0 k]
  | .brlo k => [encBR 0xF000 0 k]
  | .brmi k => [encBR 0xF002 0 k]
  | .brpl k => [encBR 0xF402 0 k]
  | .brge k => [encBR 0xF404 0 k]
  | .brlt k => [encBR 0xF004 0 k]
  | .brhs k => [encBR 0xF005 0 k]
  | .brhc k => [encBR 0xF405 0 k]
  | .brts k => [encBR 0xF006 0 k]
  | .brtc k => [encBR 0xF406 0 k]
  | .brvs k => [encBR 0xF003 0 k]
  | .brvc k => [encBR 0xF403 0 k]
  | .brie k => [encBR 0xF007 0 k]
  | .brid k => [encBR 0xF407 0 k]
  | .mov d r => [encRR 0x2C00 d r]
  | .ldi d k => [encRI 0xE000 d k]
  | .ldZ d => [encD 0x8000 d]
  | .stZ r => [encD 0x8200 r]
  | .inIo d p => [encIO 0xB000 d p]
  | .outIo p r => [encIO 0xB800 r p]
  | .sbi p b => [encIOB 0x9A00 p b]
  | .cbi p b => [encIOB 0x9800 p b]
  | .lsl d => [encRR 0x0C00 d d]
  | .lsr d => [encD 0x9406 d]
  | .rol d => [encRR 0x1C00 d d]
  | .ror d => [encD 0x9407 d]
  | .asr d => [encD 0x9405 d]
  | .swap d => [encD 0x9402 d]
  | .bset b => [encSreg 0x9408 b]
  | .bclr b => [encSreg 0x9488 b]
  | .bst r b => [encRB 0xFA00 r b]
  | .bld d b => [encRB 0xF800 d b]
  | .sec => [0x9408#16]
  | .clc => [0x9488#16]
  | .sen => [0x9428#16]
  | .cln => [0x94A8#16]
  | .sez => [0x9418#16]
  | .clz => [0x9498#16]
  | .sei => [0x9478#16]
  | .cli => [0x94F8#16]
  | .ses => [0x9448#16]
  | .cls => [0x94C8#16]
  | .sev => [0x9438#16]
  | .clv => [0x94B8#16]
  | .setT => [0x9468#16]
  | .clt => [0x94E8#16]
  | .seh => [0x9458#16]
  | .clh => [0x94D8#16]
  | .nop => [0x0000#16]
  | .sleep => [0x9588#16]
  | .wdr => [0x95A8#16]
  | .lpm => [0x95C8#16]
  | .adiw d k => [encIW 0x9600 d k]
  | .sbiw d k => [encIW 0x9700 d k]
  | .ijmp => [0x9409#16]
  | .icall => [0x9509#16]
  | .lds d k => [encD 0x9000 d, k]
  | .ldX d => [encD 0x900C d]
  | .ldXInc d => [encD 0x900D d]
  | .ldXDec d => [encD 0x900E d]
  | .ldY d => [encD 0x8008 d]
  | .ldYInc d => [encD 0x9009 d]
  | .ldYDec d => [encD 0x900A d]
  | .lddY d q => [encLDD 0x8008 d q]
  | .ldZInc d => [encD 0x9001 d]
  | .ldZDec d => [encD 0x9002 d]
  | .lddZ d q => [encLDD 0x8000 d q]
  | .sts k r => [encD 0x9200 r, k]
  | .stX r => [encD 0x920C r]
  | .stXInc r => [encD 0x920D r]
  | .stXDec r => [encD 0x920E r]
  | .stY r => [encD 0x8208 r]
  | .stYInc r => [encD 0x9209 r]
  | .stYDec r => [encD 0x920A r]
  | .stdY q r => [encLDD 0x8208 r q]
  | .stZInc r => [encD 0x9201 r]
  | .stZDec r => [encD 0x9202 r]
  | .stdZ q r => [encLDD 0x8200 r q]
  | .push r => [encD 0x920F r]
  | .pop d => [encD 0x900F d]
  | .jmp k => [encJmp 0x940C k, k.extractLsb' 0 16]
  | .call k => [encJmp 0x940E k, k.extractLsb' 0 16]
  | .elpm => [0x95D8#16]
  | .mul d r => [encRR 0x9C00 d r]
  | .muls d r => [encMuls 0x0200 d r]
  | .mulsu d r => [encMul3 0x0300 d r]
  | .fmul d r => [encMul3 0x0308 d r]
  | .fmuls d r => [encMul3 0x0380 d r]
  | .fmulsu d r => [encMul3 0x0388 d r]
  | .movw d r => [encMovw 0x0100 d r]
  | .lpmZ d => [encD 0x9004 d]
  | .lpmZInc d => [encD 0x9005 d]
  | .spm => [0x95E8#16]
  | .brk => [0x9598#16]
  | .elpmZ d => [encD 0x9006 d]
  | .elpmZInc d => [encD 0x9007 d]
  | .eijmp => [0x9419#16]
  | .eicall => [0x9519#16]

/-- The bytes of a well-formed instruction as a program image holds them (R70). -/
def encodeBytes (i : Instr) : List Byte := (encode i).flatMap fun w => [loByte w, hiByte w]

end Sys2Proof
end

