-- ==== Sys2Proof/Machine/Memory.lean ====
section
/-! DEFINITION. Sparse byte memory in one canonical form: addresses strictly rising, and no entry equal to what an unlisted address
reads as. `blank` says what that is: `none` (no value) for SRAM (R46; log entry 6), a byte for program memory (log entry 5). -/

namespace Sys2Proof.Machine

/-- Listed bytes by address. -/
abbrev Memory := List Host.Cell

/-- The listed byte at `a`, if any. -/
def Memory.find? : Memory → Nat → Option Byte
  | [], _ => none
  | c :: m, a => if a = c.1 then some c.2 else Memory.find? m a

/-- What address `a` reads as: its listed byte, else `blank`. -/
def Memory.read (blank : Option Byte) (m : Memory) (a : Nat) : Option Byte :=
  match m.find? a with
  | some v => some v
  | none => blank

/-- List `v` at `a`, in address order. -/
def Memory.insert : Memory → Nat → Byte → Memory
  | [], a, v => [(a, v)]
  | c :: m, a, v =>
    if a < c.1 then (a, v) :: c :: m
    else if a = c.1 then (a, v) :: m
    else c :: Memory.insert m a v

/-- Unlist `a`. -/
def Memory.erase : Memory → Nat → Memory
  | [], _ => []
  | c :: m, a => if a = c.1 then Memory.erase m a else c :: Memory.erase m a

/-- Write `v` at `a`, keeping the canonical form: writing what an unlisted address reads as unlists `a`. -/
def Memory.write (blank : Option Byte) (m : Memory) (a : Nat) (v : Byte) : Memory :=
  if blank = some v then m.erase a else m.insert a v

/-- Canonical form with every address at least `lo`. -/
def Memory.wfFrom (blank : Option Byte) : Nat → Memory → Bool
  | _, [] => true
  | lo, c :: m => decide (lo ≤ c.1) && decide (blank ≠ some c.2) && Memory.wfFrom blank (c.1 + 1) m

/-- The canonical form. -/
def Memory.wf (blank : Option Byte) (m : Memory) : Bool := Memory.wfFrom blank 0 m

/-- Every listed address is below `hi`. -/
def Memory.below (hi : Nat) (m : Memory) : Bool := m.all fun c => decide (c.1 < hi)

end Sys2Proof.Machine
end

