-- ==== Sys2Proof/Machine/Cores.lean ====
section
/-! DEFINITION. What the parameters of R9 fix: which `CORE` has which instruction (R4, R108), which registers exist, how many bytes a
return address takes, how the program counter wraps (R28), and the device that `State.reset` stands for (log entry 1). -/

namespace Sys2Proof

/-- LPM exists (R218: LPMCORES). -/
def CoreKind.hasLpm : CoreKind → Bool
  | .at90s1200 => false
  | .attiny1x | .at90s | .atmega603 | .atmega103 | .atmega8xxx | .atmega16x | .at94kxx | .atmega323 | .atmega128
  | .avr6 => true

/-- Neither AT90S1200 nor ATtiny1x: the cores with data memory and a stack pointer (the set AVR2+ of files 40 to 42). -/
def CoreKind.isAvr2Up : CoreKind → Bool
  | .at90s1200 | .attiny1x => false
  | .at90s | .atmega603 | .atmega103 | .atmega8xxx | .atmega16x | .at94kxx | .atmega323 | .atmega128 | .avr6 => true

/-- JMP and CALL exist (R197, R198: JMPCORES). -/
def CoreKind.hasJmp : CoreKind → Bool
  | .at90s1200 | .attiny1x | .at90s | .atmega8xxx => false
  | .atmega603 | .atmega103 | .atmega16x | .at94kxx | .atmega323 | .atmega128 | .avr6 => true

/-- ELPM exists (R243: ELPMCORES), and so RAMPZ (R9). -/
def CoreKind.hasElpm : CoreKind → Bool
  | .at90s1200 | .attiny1x | .at90s | .atmega603 | .atmega8xxx | .atmega16x | .at94kxx | .atmega323 => false
  | .atmega103 | .atmega128 | .avr6 => true

/-- The multiplies, MOVW and LPM Rd,Z exist (R150: MULCORES). -/
def CoreKind.hasMul : CoreKind → Bool
  | .at90s1200 | .attiny1x | .at90s | .atmega603 | .atmega103 => false
  | .atmega8xxx | .atmega16x | .at94kxx | .atmega323 | .atmega128 | .avr6 => true

/-- SPM exists (R247: SPMCORES). -/
def CoreKind.hasSpm : CoreKind → Bool
  | .at90s1200 | .attiny1x | .at90s | .atmega603 | .atmega103 | .at94kxx => false
  | .atmega8xxx | .atmega16x | .atmega323 | .atmega128 | .avr6 => true

/-- BREAK exists (R303). -/
def CoreKind.hasBreak : CoreKind → Bool
  | .at90s1200 | .attiny1x | .at90s | .atmega603 | .atmega103 | .atmega8xxx | .atmega16x => false
  | .at94kxx | .atmega323 | .atmega128 | .avr6 => true

/-- ELPM Rd,Z and ELPM Rd,Z+ exist (R248: ELPMXCORES). -/
def CoreKind.hasElpmX : CoreKind → Bool
  | .at90s1200 | .attiny1x | .at90s | .atmega603 | .atmega103 | .atmega8xxx | .atmega16x | .at94kxx | .atmega323 => false
  | .atmega128 | .avr6 => true

/-- EIJMP and EICALL exist (R199, R200), and so EIND (R9). -/
def CoreKind.isAvr6 : CoreKind → Bool
  | .at90s1200 | .attiny1x | .at90s | .atmega603 | .atmega103 | .atmega8xxx | .atmega16x | .at94kxx | .atmega323
  | .atmega128 => false
  | .avr6 => true

/-- `CORE` has the row of the instruction (R6, R108; the `cores` lists of spec/opcode_table.json). LDD Rd,Z+q and STD Z+q,Rr with
q = 0 are LD Rd,Z and ST Z,Rr, which every core has (R98, R214, R215). -/
def Instr.implementedOn (core : CoreKind) : Instr → Bool
  | .add _ _ | .adc _ _ | .sub _ _ | .subi _ _ | .sbc _ _ | .sbci _ _ | .and _ _ | .andi _ _ | .or _ _ | .ori _ _
  | .eor _ _ | .com _ | .neg _ | .sbr _ _ | .cbr _ _ | .inc _ | .dec _ | .tst _ | .clr _ | .ser _ | .rjmp _
  | .rcall _ | .ret | .reti | .cpse _ _ | .cp _ _ | .cpc _ _ | .cpi _ _ | .sbrc _ _ | .sbrs _ _ | .sbic _ _
  | .sbis _ _ | .brbs _ _ | .brbc _ _ | .breq _ | .brne _ | .brcs _ | .brcc _ | .brsh _ | .brlo _ | .brmi _ | .brpl _
  | .brge _ | .brlt _ | .brhs _ | .brhc _ | .brts _ | .brtc _ | .brvs _ | .brvc _ | .brie _ | .brid _ | .mov _ _
  | .ldi _ _ | .ldZ _ | .stZ _ | .inIo _ _ | .outIo _ _ | .sbi _ _ | .cbi _ _ | .lsl _ | .lsr _ | .rol _ | .ror _
  | .asr _ | .swap _ | .bset _ | .bclr _ | .bst _ _ | .bld _ _ | .sec | .clc | .sen | .cln | .sez | .clz | .sei
  | .cli | .ses | .cls | .sev | .clv | .setT | .clt | .seh | .clh | .nop | .sleep | .wdr => true
  | .lpm => core.hasLpm
  | .adiw _ _ | .sbiw _ _ | .ijmp | .icall | .lds _ _ | .ldX _ | .ldXInc _ | .ldXDec _ | .ldY _ | .ldYInc _
  | .ldYDec _ | .lddY _ _ | .ldZInc _ | .ldZDec _ | .sts _ _ | .stX _ | .stXInc _ | .stXDec _ | .stY _ | .stYInc _
  | .stYDec _ | .stdY _ _ | .stZInc _ | .stZDec _ | .push _ | .pop _ => core.isAvr2Up
  | .lddZ _ q => decide (q = 0#6) || core.isAvr2Up
  | .stdZ q _ => decide (q = 0#6) || core.isAvr2Up
  | .jmp _ | .call _ => core.hasJmp
  | .elpm => core.hasElpm
  | .mul _ _ | .muls _ _ | .mulsu _ _ | .fmul _ _ | .fmuls _ _ | .fmulsu _ _ | .movw _ _ | .lpmZ _ | .lpmZInc _ => core.hasMul
  | .spm => core.hasSpm
  | .brk => core.hasBreak
  | .elpmZ _ | .elpmZInc _ => core.hasElpmX
  | .eijmp | .eicall => core.isAvr6

/-- `HAS_SP` (R9): the stack is in data memory. -/
def Config.hasSp (c : Config) : Bool := c.core.isAvr2Up

/-- `HAS_RAMPZ` (R9): "true iff `CORE` has an ELPM line". -/
def Config.hasRampz (c : Config) : Bool := c.core.hasElpm

/-- `HAS_EIND` (R9). -/
def Config.hasEind (c : Config) : Bool := c.core.isAvr6

/-- `RET_BYTES` (R9): 2 when `PC_BITS` is at most 16, 3 otherwise. -/
def Config.retBytes (c : Config) : Nat := if c.pcBits ≤ 16 then 2 else 3

/-- The value `pc <- t` stores: `t mod 2^PC_BITS` (R28). -/
def Config.wrapPc (c : Config) (t : Nat) : PcWord := BitVec.ofNat 22 (t % 2 ^ c.pcBits)

/-- The constraints R9 puts on the parameters: `FLASH_WORDS` between 1 and 2^22, `PC_BITS` at most 22 and at most 16 unless
`CORE = AVR6`, a 16-bit `SRAM_END` of at least 0x5F that is 0x5F on the cores without SRAM, at least one vector. -/
def Config.ok (c : Config) : Bool :=
  decide (1 ≤ c.flashWords ∧ c.flashWords ≤ 2 ^ 22 ∧ c.pcBits ≤ 22 ∧ 0x5F ≤ c.sramEnd ∧ c.sramEnd ≤ 0xFFFF ∧
    1 ≤ c.nVectors) && (decide (c.pcBits ≤ 16) || c.core.isAvr6) && (decide (c.sramEnd = 0x5F) || c.core.isAvr2Up)

/-- The device of `State.reset`: DESIGN CHOICE (log entry 1), the superset core AVR6 with the widest memories, every row of the
opcode table implemented, and the value of `SLEEP_MODEL`, `BREAK_MODEL` and `SPM_MODEL` under which the three
deferred instructions run (log entries 12, 13, 14). -/
def Config.resetDevice : Config where
  core := .avr6
  flashWords := 2 ^ 22
  pcBits := 22
  sramEnd := 0xFFFF
  hwStackDepth := 3
  nVectors := 64
  vectorStride := 2
  sleepModel := .wait
  breakModel := .nop
  spmModel := .literal

namespace Machine

/-- What an unlisted SRAM byte reads as: no value; the reading operation draws a free one (R46, R345; log entry 6). -/
def sramBlank : Option Byte := none

/-- What an unlisted program byte reads as: 0xFF, erased flash (R300: general knowledge G23; PRESUMED, log entry 5). -/
def progBlank : Option Byte := some 0xFF#8

end Machine

end Sys2Proof
end

