-- ==== Sys2Proof/Machine/State.lean ====
section
/-! DEFINITION. The state of the machine (R41), the reasons a step stops (R320), the state after reset (R46, R340). -/

namespace Sys2Proof.Machine

/-- The model faults of R320 whose kind is "fault": the step does not happen and no state changes. All are safe: the hardware goes
on in some way the spec does not give, and nothing can be proved of what follows. -/
inductive Fault where
  /-- Raised by fetch and by a skip that inspects the next word, at a word address `a` of `FLASH_WORDS` or more (R30, R68, R93). Safe. -/
  | fetchOutOfRange (a : Nat)
  /-- Raised by every data access (loads, stores, pushes, pops, the implicit ones too) at an address above `SRAM_END`, or above 0x1F on
  the cores without SRAM (R63, R64, R85). Safe. -/
  | unimplementedData (a : Nat)
  /-- Raised by LPM, ELPM and SPM at a word address `a` of `FLASH_WORDS` or more (R68, R247, R250). Safe. -/
  | unimplementedProgram (a : Nat)
  /-- Raised by a call or an interrupt entry with `HW_STACK_DEPTH` addresses stacked on a core without SP (R45, R73). Safe. -/
  | hwStackOverflow
  /-- Raised by RET or RETI with nothing stacked on a core without SP (R45, R74). Safe. -/
  | hwStackUnderflow
  deriving DecidableEq, Repr

/-- The model faults of R320 whose kind is "refusal", and `notModelled`. All are safe: no state changes and nothing can be
proved of what follows. -/
inductive Refusal where
  /-- An instruction whose meaning is not written; raised by an arm of `exec`. Safe. No arm raises it. -/
  | notModelled (mnemonic : String)
  /-- Raised by fetch at a first word `w` that matches no canonical row (R107) or a row that lacks `CORE` (R108). Safe. -/
  | illegalInstruction (w : Word)
  /-- Raised by SPM when `SPM_MODEL = refuse` (R247). Safe. -/
  | refuseSpm
  /-- Raised by SLEEP when `SLEEP_MODEL = refuse` (R301). Safe. -/
  | refuseSleep
  /-- Raised by BREAK when `BREAK_MODEL = refuse` (R303). Safe. -/
  | refuseBreak
  /-- `Unpredictable("pointer-as-data")`: raised by a post-increment or pre-decrement form whose data register is half of its own
  pointer (R211 item 1). Safe. -/
  | pointerAsData
  /-- `Unpredictable("pointer-self-access")`: raised by a post-increment or pre-decrement form whose address is half of its own
  pointer (R211 item 2, R61). Safe. -/
  | pointerSelfAccess
  /-- `Unpredictable("skip over unimplemented two-word opcode")`: raised by a skip (R93). Safe. -/
  | skipOverUnimplemented
  deriving DecidableEq, Repr

/-- `RunState` (R44). -/
inductive RunState where
  | running | sleeping | stopped
  deriving DecidableEq, Repr

/-- What the environment presents at one instruction boundary: whether it asserts a reset (R317), and the interrupt requests that are
raised and individually enabled, by vector number (`IrqPending`, R312). -/
structure Boundary where
  reset : Bool
  irqs : List Nat
  deriving DecidableEq, Repr

/-- What the environment is told of (R66, R302, R312, R340). -/
inductive EnvEvent where
  /-- `IoDevice.read(P)` was answered with `v` -/
  | ioRead (p : BitVec 6) (v : Byte)
  /-- `IoDevice.write(P, v)` -/
  | ioWrite (p : BitVec 6) (v : Byte)
  /-- `IoDevice.wdr()` -/
  | wdr
  /-- `IrqTaken(n)` -/
  | irqTaken (n : Nat)
  /-- `Reset` -/
  | reset
  deriving DecidableEq, Repr

/-- The machine (R41) with its configuration and the environment's plain data. -/
structure State where
  /-- the parameters of R9, written by nothing (log entry 1) -/
  cfg : Config
  /-- R0..R31 (R20) -/
  regs : Vector Byte 32
  /-- the word address of the instruction being executed (R27) -/
  pc : PcWord
  /-- I T H S V N Z C, bit 7 to bit 0 (R31) -/
  sreg : Byte
  /-- SPH:SPL (R35) -/
  sp : Word
  /-- RAMPZ (R37) -/
  rampz : Byte
  /-- EIND (R38) -/
  eind : Byte
  /-- the bytes of regular data memory that something has written (R41, R60, R345) -/
  sram : Memory
  /-- the return addresses of a core without SP, newest first (R45) -/
  hwStack : List PcWord
  /-- program memory, byte `2a` the low and byte `2a + 1` the high byte of word `a` (R67, R70) -/
  prog : Memory
  /-- `IrqShadow` (R43) -/
  irqShadow : Bool
  /-- `RunState` (R44) -/
  runState : RunState
  /-- the model's own: what the environment presents at the coming boundaries (R312, R317; log entry 8) -/
  boundaries : List Boundary
  /-- the model's own: the answers to the next peripheral reads (R66; log entry 7) -/
  ioAnswers : List Byte
  /-- the model's own: what the environment has been told, newest first (log entry 9) -/
  events : List EnvEvent
  /-- the model's own: how many free values have been drawn (log entry 10) -/
  draws : Nat
  deriving DecidableEq, Repr

/-- The machine right after power-on (R46, R340) on the device of log entry 1, no program loaded (log entries 5, 11). R0..R31 and SP,
which R46 leaves unspecified, hold the values of log entries 2 and 3. The environment has been told of the power-on
`Reset()` itself, which R340 calls the initial state of every run. -/
def State.reset : State where
  cfg := Config.resetDevice
  regs := Vector.replicate 32 0#8
  pc := 0#22
  sreg := 0#8
  sp := 0#16
  rampz := 0#8
  eind := 0#8
  sram := []
  hwStack := []
  prog := []
  irqShadow := false
  runState := .running
  boundaries := []
  ioAnswers := []
  events := [.reset]
  draws := 0

end Sys2Proof.Machine
end

