-- ==== Sys2Proof/Machine/Ops.lean ====
section
/-! DEFINITION. The named operations over registers, the three address spaces and the stack (R20 to R30, R60 to R74), the skip (R93,
R161), and the events of the machine: interrupt entry (R314) with the return from it (R322), reset (R340), and the choice
between them at an instruction boundary (R313, R321). -/

namespace Sys2Proof.Machine

/-- What an operation that may stop answers (R320). -/
abbrev Res (α : Type) := Host.Outcome α Fault Refusal

/-- Go on with the answer of `x`, or stop where it stops. -/
def bindRes {α β : Type} (x : Res α) (f : α → Res β) : Res β :=
  match x with
  | .next a => f a
  | .fault r => .fault r
  | .refused r => .refused r

/-! ### Registers (R20, R23), flags (R31), program counter (R28, R29, R160) -/

/-- `R[i]` (R20). -/
def State.reg (s : State) (i : Reg) : Byte := s.regs[i.val]

/-- `R[i] <- v` (R20). -/
def State.setReg (s : State) (i : Reg) (v : Byte) : State := { s with regs := s.regs.set i.val v i.isLt }

/-- `RP[i]` (R23): the odd register is the high byte. -/
def State.pair (s : State) (i : Reg) : Word := wordOfBytes (s.reg i) (s.reg (i + 1))

/-- `RP[i] <- v` (R23). -/
def State.setPair (s : State) (i : Reg) (v : Word) : State := (s.setReg i (loByte v)).setReg (i + 1) (hiByte v)

/-- `SREG[b]` (R31). -/
def State.flag (s : State) (b : Flag) : Bool := s.sreg.getLsbD b.val

/-- Replace SREG from inside an instruction that names the flags it writes. -/
def State.setSreg (s : State) (v : Byte) : State := { s with sreg := v }

/-- `pc <- t` (R28). -/
def State.setPc (s : State) (t : Nat) : State := { s with pc := s.cfg.wrapPc t }

/-- `pc <- pc + n` (R29). -/
def State.advance (s : State) (n : Nat) : State := s.setPc (s.pc.toNat + n)

/-- The target of a relative transfer, `(pc + 1 + k) mod 2^PC_BITS` (R160). -/
def State.relTarget (s : State) (k : Int) : Nat := (((s.pc.toNat : Int) + 1 + k) % (2 ^ s.cfg.pcBits : Nat)).toNat

/-! ### Free values and the environment (R66; log entries 6 to 10) -/

/-- One free value. -/
def State.draw (s : State) : Byte × State := (Config.freeByte s.draws, { s with draws := s.draws + 1 })

/-- Tell the environment of `e`. -/
def State.emit (s : State) (e : EnvEvent) : State := { s with events := e :: s.events }

/-- `IoDevice.read(P)` (R66): the environment's next answer, or a free value where it has given none. -/
def State.devRead (s : State) (p : BitVec 6) : Byte × State :=
  match s.ioAnswers with
  | v :: rest => (v, ({ s with ioAnswers := rest }).emit (.ioRead p v))
  | [] => (s.draw.1, s.draw.2.emit (.ioRead p s.draw.1))

/-! ### I/O space (R34, R35, R37, R38, R62, R65) -/

/-- The byte of a core register's I/O location, and none where the location is the environment's (R65). -/
def State.coreIo? (s : State) (p : BitVec 6) : Option Byte :=
  if p = 0x3F#6 then some s.sreg
  else if p = 0x3E#6 ∧ s.cfg.hasSp = true then some (hiByte s.sp)
  else if p = 0x3D#6 ∧ s.cfg.hasSp = true then some (loByte s.sp)
  else if p = 0x3C#6 ∧ s.cfg.hasEind = true then some s.eind
  else if p = 0x3B#6 ∧ s.cfg.hasRampz = true then some s.rampz
  else none

/-- `IoRead(P)` (R65). -/
def State.ioRead (s : State) (p : BitVec 6) : Byte × State :=
  match s.coreIo? p with
  | some v => (v, s)
  | none => s.devRead p

/-- A write of the SREG location: all eight flags, and `IrqShadow` when I goes from 0 to 1 (R34, R43). -/
def State.writeSreg (s : State) (v : Byte) : State :=
  { s with sreg := v, irqShadow := s.irqShadow || (!s.sreg.getLsbD flagI.val && v.getLsbD flagI.val) }

/-- `IoWrite(P, v)` (R65, R66). -/
def State.ioWrite (s : State) (p : BitVec 6) (v : Byte) : State :=
  if p = 0x3F#6 then s.writeSreg v
  else if p = 0x3E#6 ∧ s.cfg.hasSp = true then { s with sp := wordOfBytes (loByte s.sp) v }
  else if p = 0x3D#6 ∧ s.cfg.hasSp = true then { s with sp := wordOfBytes v (hiByte s.sp) }
  else if p = 0x3C#6 ∧ s.cfg.hasEind = true then { s with eind := v }
  else if p = 0x3B#6 ∧ s.cfg.hasRampz = true then { s with rampz := v }
  else s.emit (.ioWrite p v)

/-- The I/O location at data addresses 0x20 to 0x5F (R62). -/
def ioOfData (a : Word) : BitVec 6 := BitVec.ofNat 6 (a.toNat - 0x20)

/-! ### Data space (R60, R61, R63, R64, R85) -/

/-- The region of a data address on the device (R60, R63). -/
inductive DataRegion where
  | register | io | sram | unimplemented
  deriving DecidableEq, Repr

/-- The dispatch that R63 and R64 share; on the cores without SRAM only the registers exist (R85). -/
def dataRegion (c : Config) (a : Word) : DataRegion :=
  if a.toNat ≤ 0x1F then .register
  else if c.hasSp = false then .unimplemented
  else if a.toNat ≤ 0x5F then .io
  else if a.toNat ≤ c.sramEnd then .sram
  else .unimplemented

/-- The register at data addresses 0x00 to 0x1F (R61). -/
def regOfData (a : Word) : Reg := Fin.ofNat 32 a.toNat

/-- The SRAM byte at data address `a`, if something has written it (R41, R345). -/
def State.sramByte? (s : State) (a : Word) : Option Byte := s.sram.read sramBlank a.toNat

/-- `MemRead(addr, 1)` (R63). An SRAM byte that nothing has written is a free value at each read (R345; log entry 6). -/
def State.memRead (s : State) (a : Word) : Res (Byte × State) :=
  match dataRegion s.cfg a with
  | .register => .next (s.reg (regOfData a), s)
  | .io => .next (s.ioRead (ioOfData a))
  | .sram =>
    match s.sramByte? a with
    | some v => .next (v, s)
    | none => .next s.draw
  | .unimplemented => .fault (.unimplementedData a.toNat)

/-- `MemWrite(addr, 1, v)` (R64). -/
def State.memWrite (s : State) (a : Word) (v : Byte) : Res State :=
  match dataRegion s.cfg a with
  | .register => .next (s.setReg (regOfData a) v)
  | .io => .next (s.ioWrite (ioOfData a) v)
  | .sram => .next { s with sram := s.sram.write sramBlank a.toNat v }
  | .unimplemented => .fault (.unimplementedData a.toNat)

/-- What data address `a` holds as far as the machine's own state holds it: a register, a core register's I/O location, a written SRAM
byte. No side effect; none where the environment or a free value would answer. Used to state frames. -/
def State.peek (s : State) (a : Word) : Option Byte :=
  if a.toNat ≤ 0x1F then some (s.reg (regOfData a))
  else if a.toNat ≤ 0x5F then s.coreIo? (ioOfData a)
  else s.sramByte? a

/-! ### Program memory (R67 to R69, R247, R250) -/

/-- Byte `b` of the program image (R70). -/
def State.progByte (s : State) (b : Nat) : Byte := (s.prog.read progBlank b).getD 0xFF#8

/-- `ProgWord(a)`, none where it raises (R68). -/
def State.progWord? (s : State) (a : Nat) : Option Word :=
  if a < s.cfg.flashWords then some (wordOfBytes (s.progByte (2 * a)) (s.progByte (2 * a + 1))) else none

/-- `ProgByte(b)` as LPM and ELPM call it (R69, R250). -/
def State.progByteRead (s : State) (b : Nat) : Res Byte :=
  match s.progWord? (b / 2) with
  | some w => .next (if b % 2 = 0 then loByte w else hiByte w)
  | none => .fault (.unimplementedProgram (b / 2))

/-- `Prog[a] <- w`. -/
def State.setProgWord (s : State) (a : Nat) (w : Word) : State :=
  { s with prog := (s.prog.write progBlank (2 * a) (loByte w)).write progBlank (2 * a + 1) (hiByte w) }

/-! ### Stack (R72 to R74) -/

/-- `Push8(v)` (R72). SP afterwards is one less than before, also where the byte lands on SP itself (log entry 15). -/
def State.push8 (s : State) (v : Byte) : Res State :=
  bindRes (s.memWrite s.sp v) fun t => .next { t with sp := s.sp - 1#16 }

/-- `Pop8()` (R72): SP is incremented first, and the read sees the new SP (log entry 16). -/
def State.pop8 (s : State) : Res (Byte × State) := State.memRead { s with sp := s.sp + 1#16 } (s.sp + 1#16)

/-- Byte `k` of a return address (R73). -/
def pcByte (a : PcWord) (k : Nat) : Byte := BitVec.ofNat 8 (a.toNat / 256 ^ k)

/-- `PushPC(a)` (R73): low byte first on the data stack, or the hardware stack. -/
def State.pushPc (s : State) (a : PcWord) : Res State :=
  if s.cfg.hasSp = true then
    bindRes (s.push8 (pcByte a 0)) fun t =>
    bindRes (t.push8 (pcByte a 1)) fun u =>
    if s.cfg.retBytes = 3 then u.push8 (pcByte a 2) else .next u
  else if s.cfg.hwStackDepth ≤ s.hwStack.length then .fault .hwStackOverflow
  else .next { s with hwStack := a :: s.hwStack }

/-- `PopPC()` (R74): the popped address modulo 2^`PC_BITS`. -/
def State.popPc (s : State) : Res (PcWord × State) :=
  if s.cfg.hasSp = true then
    bindRes (if s.cfg.retBytes = 3 then s.pop8 else .next (0#8, s)) fun b2 =>
    bindRes b2.2.pop8 fun b1 =>
    bindRes b1.2.pop8 fun b0 =>
    .next (s.cfg.wrapPc (b2.1.toNat * 65536 + b1.1.toNat * 256 + b0.1.toNat), b0.2)
  else
    match s.hwStack with
    | a :: rest => .next (a, { s with hwStack := rest })
    | [] => .fault .hwStackUnderflow

/-- A call: `PushPC(pc + len)`, then `pc <- target` (R162). -/
def State.callTo (s : State) (len target : Nat) : Res State :=
  bindRes (s.pushPc (s.cfg.wrapPc (s.pc.toNat + len))) fun t => .next (t.setPc target)

/-- RET: `pc <- PopPC()` (R165). -/
def State.returnFromCall (s : State) : Res State := bindRes s.popPc fun p => .next { p.2 with pc := p.1 }

/-! ### Skips (R93, R161) -/

/-- `SkipLen(a)` (R93). -/
def State.skipLen (s : State) (a : Nat) : Res Nat :=
  match s.progWord? (a % 2 ^ s.cfg.pcBits) with
  | none => .fault (.fetchOutOfRange (a % 2 ^ s.cfg.pcBits))
  | some w =>
    if isLongWord w = true then
      match decodeWords w 0#16 with
      | some i => if i.implementedOn s.cfg.core = true then .next 2 else .refused .skipOverUnimplemented
      | none => .refused .skipOverUnimplemented
    else .next 1

/-- The end of a skip instruction (R161): past the next instruction when `cond`, to it otherwise. -/
def State.skipIf (s : State) (cond : Bool) : Res State :=
  if cond = true then bindRes (s.skipLen (s.pc.toNat + 1)) fun n => .next (s.advance (1 + n))
  else .next (s.advance 1)

/-! ### Interrupt entry and return, reset (R314, R322, R340) -/

/-- `EnterIrq(n)` (R314): taking an interrupt. -/
def State.enterIrq (s : State) (n : Nat) : Res State :=
  bindRes (s.pushPc s.pc) fun t =>
  .next (({ t with sreg := putBit t.sreg flagI false
                   pc := s.cfg.wrapPc (n * s.cfg.vectorStride)
                   runState := .running
                   irqShadow := false }).emit (.irqTaken n))

/-- RETI: `pc <- PopPC(); SREG.I <- 1; IrqShadow <- 1` (R166, R322). -/
def State.returnFromIrq (s : State) : Res State :=
  bindRes s.popPc fun p =>
  .next { p.2 with pc := p.1, sreg := putBit p.2.sreg flagI true, irqShadow := true }

/-- `Reset()` (R340) as an event of a run: R0..R31 and SP become free values, nothing of SRAM survives, program memory stays. -/
def State.takeReset (s : State) : State :=
  ({ s with
      pc := 0#22
      sreg := 0#8
      rampz := 0#8
      eind := 0#8
      hwStack := []
      irqShadow := false
      runState := .running
      regs := Vector.ofFn fun i => Config.freeByte (s.draws + i.val)
      sp := wordOfBytes (Config.freeByte (s.draws + 32)) (Config.freeByte (s.draws + 33))
      sram := []
      draws := s.draws + 34 }).emit .reset

/-! ### One instruction boundary (R312, R313, R315, R317, R321) -/

/-- What the environment presents at this boundary; nothing when the list has run out (log entry 8). -/
def State.currentBoundary (s : State) : Boundary := s.boundaries.headD ⟨false, []⟩

/-- Past this boundary. -/
def State.popBoundary (s : State) : State := { s with boundaries := s.boundaries.tail }

/-- `min(IrqPending)` (R315), over the vectors 1 to `N_VECTORS - 1` that exist (R312; log entry 24). -/
def State.lowestRequest (s : State) : Option Nat :=
  (s.currentBoundary.irqs.filter fun n => decide (1 ≤ n ∧ n < s.cfg.nVectors)).min?

/-- `TakeIrq?` (R313). -/
def State.irqToTake (s : State) : Option Nat :=
  if s.flag flagI = true ∧ s.irqShadow = false ∧ s.runState ≠ .stopped then s.lowestRequest else none

/-- What a step does (R313, R321). -/
inductive Action where
  | reset | irq (n : Nat) | idle | run
  deriving DecidableEq, Repr

/-- The choice of R313 and R321: reset first, else the interrupt to take, else an instruction when `Running`. -/
def State.nextAction (s : State) : Action :=
  if s.currentBoundary.reset = true then .reset
  else
    match s.irqToTake with
    | some n => .irq n
    | none => if s.runState = .running then .run else .idle

/-- The state an instruction starts from: past the boundary, and with `IrqShadow` cleared, which the instructions that R43 names set
again (log entry 17). -/
def State.beginInstr (s : State) : State := { s.popBoundary with irqShadow := false }

end Sys2Proof.Machine
end

