-- ==== Sys2Proof/Machine/Operands.lean ====
section
/-! DEFINITION. The data addressing modes (R210), the pointer checks (R211), program-memory operands (R250) and the writing of ALU
results. Each mode is one operation that the instructions of its shape share. -/

namespace Sys2Proof.Machine

/-- X, Y and Z (R24). -/
inductive Ptr where
  | x | y | z
  deriving DecidableEq, Repr

/-- The low register of the pair (R24). -/
def Ptr.lo : Ptr → Reg
  | .x => 26
  | .y => 28
  | .z => 30

/-- The pointer's value (R24). -/
def State.ptr (s : State) (p : Ptr) : Word := s.pair p.lo

/-- Write the pointer (R23). -/
def State.setPtr (s : State) (p : Ptr) (v : Word) : State := s.setPair p.lo v

/-- The register is half of the pointer (R211 item 1). -/
def Ptr.has (p : Ptr) (r : Reg) : Bool := decide (r = p.lo ∨ r = p.lo + 1)

/-- The data address is half of the pointer (R211 item 2). -/
def Ptr.owns (p : Ptr) (a : Word) : Bool := decide (a.toNat = p.lo.val ∨ a.toNat = p.lo.val + 1)

/-- The checks of R211 for a post-increment or pre-decrement form with data register `r` and effective address `a`, then `f`. -/
def guardPtr (p : Ptr) (r : Reg) (a : Word) (f : Res State) : Res State :=
  if p.has r = true then .refused .pointerAsData
  else if p.owns a = true then .refused .pointerSelfAccess
  else f

/-- The address of a displacement form (R210). -/
def State.dispAddr (s : State) (p : Ptr) (q : BitVec 6) : Word := s.ptr p + q.setWidth 16

/-- The address of a pre-decrement form (R210). -/
def State.decAddr (s : State) (p : Ptr) : Word := s.ptr p - 1#16

/-- `R[d] <- MemRead(a, 1); pc <- pc + len` (R210). -/
def State.loadFrom (s : State) (d : Reg) (a : Word) (len : Nat) : Res State :=
  bindRes (s.memRead a) fun x => .next ((x.2.setReg d x.1).advance len)

/-- `MemWrite(a, 1, R[r]); pc <- pc + len` (R210). -/
def State.storeTo (s : State) (a : Word) (r : Reg) (len : Nat) : Res State :=
  bindRes (s.memWrite a (s.reg r)) fun t => .next (t.advance len)

/-- Load with post-increment (R210, R221). -/
def State.loadInc (s : State) (d : Reg) (p : Ptr) : Res State :=
  guardPtr p d (s.ptr p) <|
  bindRes (s.memRead (s.ptr p)) fun x => .next (((x.2.setReg d x.1).setPtr p (s.ptr p + 1#16)).advance 1)

/-- Load with pre-decrement (R210, R222). -/
def State.loadDec (s : State) (d : Reg) (p : Ptr) : Res State :=
  guardPtr p d (s.decAddr p) <|
  bindRes (s.memRead (s.decAddr p)) fun x => .next (((x.2.setReg d x.1).setPtr p (s.decAddr p)).advance 1)

/-- Store with post-increment (R210, R232). -/
def State.storeInc (s : State) (p : Ptr) (r : Reg) : Res State :=
  guardPtr p r (s.ptr p) <|
  bindRes (s.memWrite (s.ptr p) (s.reg r)) fun t => .next ((t.setPtr p (s.ptr p + 1#16)).advance 1)

/-- Store with pre-decrement (R210, R233). -/
def State.storeDec (s : State) (p : Ptr) (r : Reg) : Res State :=
  guardPtr p r (s.decAddr p) <|
  bindRes (s.memWrite (s.decAddr p) (s.reg r)) fun t => .next ((t.setPtr p (s.decAddr p)).advance 1)

/-- The byte address `Z` of LPM (R250). -/
def State.lpmAddr (s : State) : Nat := (s.ptr .z).toNat

/-- The byte address `RAMPZ : Z` of ELPM (R250). -/
def State.elpmAddr (s : State) : Nat := s.rampz.toNat * 65536 + (s.ptr .z).toNat

/-- `R[d] <- ProgByte(b); pc <- pc + 1` (R218, R243). -/
def State.loadProg (s : State) (d : Reg) (b : Nat) : Res State :=
  bindRes (s.progByteRead b) fun v => .next ((s.setReg d v).advance 1)

/-- LPM Rd,Z+ (R246): Z wraps within 16 bits. -/
def State.loadProgInc (s : State) (d : Reg) : Res State :=
  if Ptr.z.has d = true then .refused .pointerAsData
  else bindRes (s.progByteRead s.lpmAddr) fun v =>
    .next (((s.setReg d v).setPtr .z (s.ptr .z + 1#16)).advance 1)

/-- ELPM Rd,Z+ (R249): the carry out of Z goes into RAMPZ, modulo 2^24. -/
def State.loadProgExtInc (s : State) (d : Reg) : Res State :=
  if Ptr.z.has d = true then .refused .pointerAsData
  else bindRes (s.progByteRead s.elpmAddr) fun v =>
    .next ((({ s.setReg d v with rampz := BitVec.ofNat 8 ((s.elpmAddr + 1) / 65536) }).setPtr .z
      (BitVec.ofNat 16 (s.elpmAddr + 1))).advance 1)

/-- The target `EIND[5:0] : Z` (R199). -/
def State.extTarget (s : State) : Nat := s.eind.toNat % 64 * 65536 + (s.ptr .z).toNat

/-- The I/O location of a 5-bit field (R99). -/
def ioLow (p : BitVec 5) : BitVec 6 := p.setWidth 6

/-- Write a result and H, S, V, N, Z, C, then go on (R128, R130). -/
def State.putAlu (s : State) (d : Reg) (o : AluOut) : State :=
  ((s.setReg d o.r).setSreg (sregHSVNZC s.sreg o)).advance 1

/-- Write only the flags H, S, V, N, Z, C (R168). -/
def State.putFlags (s : State) (o : AluOut) : State := (s.setSreg (sregHSVNZC s.sreg o)).advance 1

/-- Write a result and a computed SREG, then go on (R134). -/
def State.putResult (s : State) (d : Reg) (r sreg : Byte) : State := ((s.setReg d r).setSreg sreg).advance 1

/-- Write a logic result with its flags (R122, R134). -/
def State.putLogic (s : State) (d : Reg) (r : Byte) : State := s.putResult d r (logicFlags s.sreg r)

/-- Write a 16-bit result of ADIW or SBIW with its flags (R148). -/
def State.putPair (s : State) (d : Reg) (v : Word) (sreg : Byte) : State := ((s.setPair d v).setSreg sreg).advance 1

/-- Write a product to R1:R0 with C and Z (R125, R150); `p` is the product before any shift. -/
def State.putProduct (s : State) (p result : Word) : State :=
  ((s.setPair 0 result).setSreg (mulFlags s.sreg p result)).advance 1

/-- A conditional branch (R175): `pc <- pc + 1 + k` when `cond`, else `pc <- pc + 1`. -/
def State.branchIf (s : State) (cond : Bool) (k : BitVec 7) : State :=
  if cond = true then s.setPc (s.relTarget k.toInt) else s.advance 1

/-- Set flag `b` by BSET; setting I starts the interrupt shadow (R268). -/
def State.setFlag (s : State) (b : Flag) : State :=
  ({ s with sreg := putBit s.sreg b true, irqShadow := s.irqShadow || decide (b = flagI) }).advance 1

/-- Clear flag `b` by BCLR (R269). -/
def State.clearFlag (s : State) (b : Flag) : State := (s.setSreg (putBit s.sreg b false)).advance 1

end Sys2Proof.Machine
end

