-- ==== Sys2Proof/Machine/Arith.lean ====
section
/-! DEFINITION. Arithmetic and logic instructions (R128 to R155). One definition per row of
spec/opcode_table.json, over the shared operations of Ops, Operands and Flags. -/

namespace Sys2Proof.Machine

/-- ADD Rd,Rr (R128). -/
def execAdd (d r : Reg) (s : State) : Res State :=
  .next (s.putAlu d (addFlags (s.reg d) (s.reg r) false))

/-- ADC Rd,Rr (R129); Z is of this byte alone (R123). -/
def execAdc (d r : Reg) (s : State) : Res State :=
  .next (s.putAlu d (addFlags (s.reg d) (s.reg r) (s.flag flagC)))

/-- SUB Rd,Rr (R130). -/
def execSub (d r : Reg) (s : State) : Res State :=
  .next (s.putAlu d (subFlags (s.reg d) (s.reg r) false))

/-- SUBI Rd,K (R131). -/
def execSubi (d : Reg) (k : Byte) (s : State) : Res State :=
  .next (s.putAlu d (subFlags (s.reg d) k false))

/-- SBC Rd,Rr (R132, R123). -/
def execSbc (d r : Reg) (s : State) : Res State :=
  .next (s.putAlu d ((subFlags (s.reg d) (s.reg r) (s.flag flagC)).chainZ (s.flag flagZ)))

/-- SBCI Rd,K (R133, R123). -/
def execSbci (d : Reg) (k : Byte) (s : State) : Res State :=
  .next (s.putAlu d ((subFlags (s.reg d) k (s.flag flagC)).chainZ (s.flag flagZ)))

/-- AND Rd,Rr (R134). -/
def execAnd (d r : Reg) (s : State) : Res State :=
  .next (s.putLogic d (s.reg d &&& s.reg r))

/-- ANDI Rd,K (R135). -/
def execAndi (d : Reg) (k : Byte) (s : State) : Res State :=
  .next (s.putLogic d (s.reg d &&& k))

/-- OR Rd,Rr (R136). -/
def execOr (d r : Reg) (s : State) : Res State :=
  .next (s.putLogic d (s.reg d ||| s.reg r))

/-- ORI Rd,K (R137). -/
def execOri (d : Reg) (k : Byte) (s : State) : Res State :=
  .next (s.putLogic d (s.reg d ||| k))

/-- EOR Rd,Rr (R138). -/
def execEor (d r : Reg) (s : State) : Res State :=
  .next (s.putLogic d (s.reg d ^^^ s.reg r))

/-- COM Rd (R139). -/
def execCom (d : Reg) (s : State) : Res State :=
  let v := 0xFF#8 - s.reg d
  .next (s.putResult d v (comFlags s.sreg v))

/-- NEG Rd (R140). -/
def execNeg (d : Reg) (s : State) : Res State :=
  .next (s.putAlu d (subFlags 0#8 (s.reg d) false))

/-- SBR Rd,K (R141), ORI Rd,K. -/
def execSbr (d : Reg) (k : Byte) (s : State) : Res State :=
  .next (s.putLogic d (s.reg d ||| k))

/-- CBR Rd,K (R142), ANDI Rd,(0xFF - K). -/
def execCbr (d : Reg) (k : Byte) (s : State) : Res State :=
  .next (s.putLogic d (s.reg d &&& (0xFF#8 - k)))

/-- INC Rd (R143). -/
def execInc (d : Reg) (s : State) : Res State :=
  let v := s.reg d + 1#8
  .next (s.putResult d v (incFlags s.sreg v))

/-- DEC Rd (R144). -/
def execDec (d : Reg) (s : State) : Res State :=
  let v := s.reg d - 1#8
  .next (s.putResult d v (decFlags s.sreg v))

/-- TST Rd (R145), AND Rd,Rd. -/
def execTst (d : Reg) (s : State) : Res State :=
  .next (s.putLogic d (s.reg d &&& s.reg d))

/-- CLR Rd (R146), EOR Rd,Rd. -/
def execClr (d : Reg) (s : State) : Res State :=
  .next (s.putLogic d (s.reg d ^^^ s.reg d))

/-- SER Rd (R147), LDI Rd,0xFF. -/
def execSer (d : Reg) (s : State) : Res State :=
  .next ((s.setReg d 0xFF#8).advance 1)

/-- ADIW Rd,K (R148, R124). -/
def execAdiw (d : Reg) (k : BitVec 6) (s : State) : Res State :=
  .next (s.putPair d (adiwResult (s.pair d) k) (adiwFlags s.sreg (s.pair d) k))

/-- SBIW Rd,K (R149, R124). -/
def execSbiw (d : Reg) (k : BitVec 6) (s : State) : Res State :=
  .next (s.putPair d (sbiwResult (s.pair d) k) (sbiwFlags s.sreg (s.pair d) k))

/-- MUL Rd,Rr, unsigned by unsigned (R150, R125). -/
def execMul (d r : Reg) (s : State) : Res State :=
  let p := product16 ((s.reg d).toNat : Int) ((s.reg r).toNat : Int)
  .next (s.putProduct p p)

/-- MULS Rd,Rr, signed by signed (R151, R125). -/
def execMuls (d r : Reg) (s : State) : Res State :=
  let p := product16 (s.reg d).toInt (s.reg r).toInt
  .next (s.putProduct p p)

/-- MULSU Rd,Rr, signed Rd by unsigned Rr (R152, R125). -/
def execMulsu (d r : Reg) (s : State) : Res State :=
  let p := product16 (s.reg d).toInt ((s.reg r).toNat : Int)
  .next (s.putProduct p p)

/-- FMUL Rd,Rr, unsigned by unsigned, product shifted left once (R153, R125). -/
def execFmul (d r : Reg) (s : State) : Res State :=
  let p := product16 ((s.reg d).toNat : Int) ((s.reg r).toNat : Int)
  .next (s.putProduct p (fractional p))

/-- FMULS Rd,Rr, signed by signed, product shifted left once (R154, R125). -/
def execFmuls (d r : Reg) (s : State) : Res State :=
  let p := product16 (s.reg d).toInt (s.reg r).toInt
  .next (s.putProduct p (fractional p))

/-- FMULSU Rd,Rr, signed Rd by unsigned Rr, product shifted left once (R155, R125). -/
def execFmulsu (d r : Reg) (s : State) : Res State :=
  let p := product16 (s.reg d).toInt ((s.reg r).toNat : Int)
  .next (s.putProduct p (fractional p))

end Sys2Proof.Machine
end

