-- ==== Sys2Proof/Machine/Bits.lean ====
section
/-! DEFINITION. Bit and bit-test instructions: I/O bits, shifts, SREG bits, T transfer (R260 to R288). One definition per row of
spec/opcode_table.json, over the shared operations of Ops, Operands and Flags. -/

namespace Sys2Proof.Machine

/-- SBI P,b (R260): a read of the location, then a write of it. -/
def execSbi (p : BitVec 5) (b : Fin 8) (s : State) : Res State :=
  let x := s.ioRead (ioLow p)
  .next ((x.2.ioWrite (ioLow p) (putBit x.1 b true)).advance 1)

/-- CBI P,b (R261): a read of the location, then a write of it. -/
def execCbi (p : BitVec 5) (b : Fin 8) (s : State) : Res State :=
  let x := s.ioRead (ioLow p)
  .next ((x.2.ioWrite (ioLow p) (putBit x.1 b false)).advance 1)

/-- LSL Rd (R262), ADD Rd,Rd. -/
def execLsl (d : Reg) (s : State) : Res State :=
  .next (s.putAlu d (addFlags (s.reg d) (s.reg d) false))

/-- LSR Rd (R263, R288). -/
def execLsr (d : Reg) (s : State) : Res State :=
  let v := s.reg d >>> 1
  .next (s.putResult d v (shiftFlags s.sreg v ((s.reg d).getLsbD 0)))

/-- ROL Rd (R264), ADC Rd,Rd. -/
def execRol (d : Reg) (s : State) : Res State :=
  .next (s.putAlu d (addFlags (s.reg d) (s.reg d) (s.flag flagC)))

/-- ROR Rd (R265, R288): the old C enters at bit 7. -/
def execRor (d : Reg) (s : State) : Res State :=
  let v := putBit (s.reg d >>> 1) 7 (s.flag flagC)
  .next (s.putResult d v (shiftFlags s.sreg v ((s.reg d).getLsbD 0)))

/-- ASR Rd (R266, R288): bit 7 stays. -/
def execAsr (d : Reg) (s : State) : Res State :=
  let v := putBit (s.reg d >>> 1) 7 (s.reg d).msb
  .next (s.putResult d v (shiftFlags s.sreg v ((s.reg d).getLsbD 0)))

/-- SWAP Rd (R267): no flag. -/
def execSwap (d : Reg) (s : State) : Res State :=
  .next ((s.setReg d ((s.reg d <<< 4) ||| (s.reg d >>> 4))).advance 1)

/-- BSET s (R268). -/
def execBset (b : Fin 8) (s : State) : Res State :=
  .next (s.setFlag b)

/-- BCLR s (R269). -/
def execBclr (b : Fin 8) (s : State) : Res State :=
  .next (s.clearFlag b)

/-- BST Rr,b (R270). -/
def execBst (r : Reg) (b : Fin 8) (s : State) : Res State :=
  .next ((s.setSreg (putBit s.sreg flagT ((s.reg r).getLsbD b.val))).advance 1)

/-- BLD Rd,b (R271). -/
def execBld (d : Reg) (b : Fin 8) (s : State) : Res State :=
  .next ((s.setReg d (putBit (s.reg d) b (s.flag flagT))).advance 1)

/-- SEC (R272), BSET 0. -/
def execSec (s : State) : Res State :=
  .next (s.setFlag flagC)

/-- CLC (R273), BCLR 0. -/
def execClc (s : State) : Res State :=
  .next (s.clearFlag flagC)

/-- SEN (R274), BSET 2. -/
def execSen (s : State) : Res State :=
  .next (s.setFlag flagN)

/-- CLN (R275), BCLR 2. -/
def execCln (s : State) : Res State :=
  .next (s.clearFlag flagN)

/-- SEZ (R276), BSET 1. -/
def execSez (s : State) : Res State :=
  .next (s.setFlag flagZ)

/-- CLZ (R277), BCLR 1. -/
def execClz (s : State) : Res State :=
  .next (s.clearFlag flagZ)

/-- SEI (R278), BSET 7. -/
def execSei (s : State) : Res State :=
  .next (s.setFlag flagI)

/-- CLI (R279), BCLR 7. -/
def execCli (s : State) : Res State :=
  .next (s.clearFlag flagI)

/-- SES (R280), BSET 4. -/
def execSes (s : State) : Res State :=
  .next (s.setFlag flagS)

/-- CLS (R281), BCLR 4. -/
def execCls (s : State) : Res State :=
  .next (s.clearFlag flagS)

/-- SEV (R282), BSET 3. -/
def execSev (s : State) : Res State :=
  .next (s.setFlag flagV)

/-- CLV (R283), BCLR 3. -/
def execClv (s : State) : Res State :=
  .next (s.clearFlag flagV)

/-- SET (R284), BSET 6. -/
def execSetT (s : State) : Res State :=
  .next (s.setFlag flagT)

/-- CLT (R285), BCLR 6. -/
def execClt (s : State) : Res State :=
  .next (s.clearFlag flagT)

/-- SEH (R286), BSET 5. -/
def execSeh (s : State) : Res State :=
  .next (s.setFlag flagH)

/-- CLH (R287), BCLR 5. -/
def execClh (s : State) : Res State :=
  .next (s.clearFlag flagH)

end Sys2Proof.Machine
end

