-- ==== Sys2Proof/Machine/Branch.lean ====
section
/-! DEFINITION. Branch instructions: jumps, calls, returns, compares, skips, conditional branches (R163 to R200). One definition per row of
spec/opcode_table.json, over the shared operations of Ops, Operands and Flags. -/

namespace Sys2Proof.Machine

/-- RJMP k (R163, R160). -/
def execRjmp (k : BitVec 12) (s : State) : Res State :=
  .next (s.setPc (s.relTarget k.toInt))

/-- RCALL k (R164, R162). -/
def execRcall (k : BitVec 12) (s : State) : Res State :=
  s.callTo 1 (s.relTarget k.toInt)

/-- RET (R165). -/
def execRet (s : State) : Res State :=
  s.returnFromCall

/-- RETI (R166). -/
def execReti (s : State) : Res State :=
  s.returnFromIrq

/-- CPSE Rd,Rr (R167). -/
def execCpse (d r : Reg) (s : State) : Res State :=
  s.skipIf (decide (s.reg d = s.reg r))

/-- CP Rd,Rr (R168). -/
def execCp (d r : Reg) (s : State) : Res State :=
  .next (s.putFlags (subFlags (s.reg d) (s.reg r) false))

/-- CPC Rd,Rr (R169, R123). -/
def execCpc (d r : Reg) (s : State) : Res State :=
  .next (s.putFlags ((subFlags (s.reg d) (s.reg r) (s.flag flagC)).chainZ (s.flag flagZ)))

/-- CPI Rd,K (R170). -/
def execCpi (d : Reg) (k : Byte) (s : State) : Res State :=
  .next (s.putFlags (subFlags (s.reg d) k false))

/-- SBRC Rr,b (R171). -/
def execSbrc (r : Reg) (b : Fin 8) (s : State) : Res State :=
  s.skipIf (!(s.reg r).getLsbD b.val)

/-- SBRS Rr,b (R172). -/
def execSbrs (r : Reg) (b : Fin 8) (s : State) : Res State :=
  s.skipIf ((s.reg r).getLsbD b.val)

/-- SBIC P,b (R173): one read of the location, then the skip. -/
def execSbic (p : BitVec 5) (b : Fin 8) (s : State) : Res State :=
  let x := s.ioRead (ioLow p)
  x.2.skipIf (!x.1.getLsbD b.val)

/-- SBIS P,b (R174): one read of the location, then the skip. -/
def execSbis (p : BitVec 5) (b : Fin 8) (s : State) : Res State :=
  let x := s.ioRead (ioLow p)
  x.2.skipIf (x.1.getLsbD b.val)

/-- BRBS s,k (R175). -/
def execBrbs (b : Fin 8) (k : BitVec 7) (s : State) : Res State :=
  .next (s.branchIf (s.flag b) k)

/-- BRBC s,k (R176). -/
def execBrbc (b : Fin 8) (k : BitVec 7) (s : State) : Res State :=
  .next (s.branchIf (!s.flag b) k)

/-- BREQ k (R177), BRBS 1,k. -/
def execBreq (k : BitVec 7) (s : State) : Res State :=
  .next (s.branchIf (s.flag flagZ) k)

/-- BRNE k (R178), BRBC 1,k. -/
def execBrne (k : BitVec 7) (s : State) : Res State :=
  .next (s.branchIf (!s.flag flagZ) k)

/-- BRCS k (R179), BRBS 0,k. -/
def execBrcs (k : BitVec 7) (s : State) : Res State :=
  .next (s.branchIf (s.flag flagC) k)

/-- BRCC k (R180), BRBC 0,k. -/
def execBrcc (k : BitVec 7) (s : State) : Res State :=
  .next (s.branchIf (!s.flag flagC) k)

/-- BRSH k (R181), BRBC 0,k. -/
def execBrsh (k : BitVec 7) (s : State) : Res State :=
  .next (s.branchIf (!s.flag flagC) k)

/-- BRLO k (R182), BRBS 0,k. -/
def execBrlo (k : BitVec 7) (s : State) : Res State :=
  .next (s.branchIf (s.flag flagC) k)

/-- BRMI k (R183), BRBS 2,k. -/
def execBrmi (k : BitVec 7) (s : State) : Res State :=
  .next (s.branchIf (s.flag flagN) k)

/-- BRPL k (R184), BRBC 2,k. -/
def execBrpl (k : BitVec 7) (s : State) : Res State :=
  .next (s.branchIf (!s.flag flagN) k)

/-- BRGE k (R185), BRBC 4,k. -/
def execBrge (k : BitVec 7) (s : State) : Res State :=
  .next (s.branchIf (!s.flag flagS) k)

/-- BRLT k (R186), BRBS 4,k. -/
def execBrlt (k : BitVec 7) (s : State) : Res State :=
  .next (s.branchIf (s.flag flagS) k)

/-- BRHS k (R187), BRBS 5,k. -/
def execBrhs (k : BitVec 7) (s : State) : Res State :=
  .next (s.branchIf (s.flag flagH) k)

/-- BRHC k (R188), BRBC 5,k. -/
def execBrhc (k : BitVec 7) (s : State) : Res State :=
  .next (s.branchIf (!s.flag flagH) k)

/-- BRTS k (R189), BRBS 6,k. -/
def execBrts (k : BitVec 7) (s : State) : Res State :=
  .next (s.branchIf (s.flag flagT) k)

/-- BRTC k (R190), BRBC 6,k. -/
def execBrtc (k : BitVec 7) (s : State) : Res State :=
  .next (s.branchIf (!s.flag flagT) k)

/-- BRVS k (R191), BRBS 3,k. -/
def execBrvs (k : BitVec 7) (s : State) : Res State :=
  .next (s.branchIf (s.flag flagV) k)

/-- BRVC k (R192), BRBC 3,k. -/
def execBrvc (k : BitVec 7) (s : State) : Res State :=
  .next (s.branchIf (!s.flag flagV) k)

/-- BRIE k (R193), BRBS 7,k. -/
def execBrie (k : BitVec 7) (s : State) : Res State :=
  .next (s.branchIf (s.flag flagI) k)

/-- BRID k (R194), BRBC 7,k. -/
def execBrid (k : BitVec 7) (s : State) : Res State :=
  .next (s.branchIf (!s.flag flagI) k)

/-- IJMP (R195). -/
def execIjmp (s : State) : Res State :=
  .next (s.setPc (s.ptr .z).toNat)

/-- ICALL (R196): the target is the Z before the push. -/
def execIcall (s : State) : Res State :=
  s.callTo 1 (s.ptr .z).toNat

/-- JMP k (R197). -/
def execJmp (k : BitVec 22) (s : State) : Res State :=
  .next (s.setPc k.toNat)

/-- CALL k (R198): the return address is that after both words. -/
def execCall (k : BitVec 22) (s : State) : Res State :=
  s.callTo 2 k.toNat

/-- EIJMP (R199). -/
def execEijmp (s : State) : Res State :=
  .next (s.setPc s.extTarget)

/-- EICALL (R200). -/
def execEicall (s : State) : Res State :=
  s.callTo 1 s.extTarget

end Sys2Proof.Machine
end

