-- ==== Sys2Proof/Machine/Mcu.lean ====
section
/-! DEFINITION. MCU control instructions (R300 to R303). One definition per row of
spec/opcode_table.json, over the shared operations of Ops, Operands and Flags. -/

namespace Sys2Proof.Machine

/-- NOP (R300). -/
def execNop (s : State) : Res State :=
  .next (s.advance 1)

/-- SLEEP (R301), under each value of `SLEEP_MODEL`. -/
def execSleep (s : State) : Res State :=
  match s.cfg.sleepModel with
  | .refuse => .refused .refuseSleep
  | .wait => .next { s.advance 1 with runState := .sleeping }
  | .nop => .next (s.advance 1)

/-- WDR (R302): the environment is told. -/
def execWdr (s : State) : Res State :=
  .next ((s.emit .wdr).advance 1)

/-- BREAK (R303), under each value of `BREAK_MODEL`; `stop` leaves pc at the BREAK. -/
def execBrk (s : State) : Res State :=
  match s.cfg.breakModel with
  | .refuse => .refused .refuseBreak
  | .stop => .next { s with runState := .stopped }
  | .nop => .next (s.advance 1)

end Sys2Proof.Machine
end

