-- ==== Sys2Proof/Machine/Transfer.lean ====
section
/-! DEFINITION. Data transfer instructions: moves, loads, stores, I/O, stack, program memory (R212 to R249). One definition per row of
spec/opcode_table.json, over the shared operations of Ops, Operands and Flags. -/

namespace Sys2Proof.Machine

/-- MOV Rd,Rr (R212). -/
def execMov (d r : Reg) (s : State) : Res State :=
  .next ((s.setReg d (s.reg r)).advance 1)

/-- LDI Rd,K (R213). -/
def execLdi (d : Reg) (k : Byte) (s : State) : Res State :=
  .next ((s.setReg d k).advance 1)

/-- LD Rd,Z (R214). -/
def execLdZ (d : Reg) (s : State) : Res State :=
  s.loadFrom d (s.ptr .z) 1

/-- ST Z,Rr (R215). -/
def execStZ (r : Reg) (s : State) : Res State :=
  s.storeTo (s.ptr .z) r 1

/-- IN Rd,P (R216). -/
def execInIo (d : Reg) (p : BitVec 6) (s : State) : Res State :=
  let x := s.ioRead p
  .next ((x.2.setReg d x.1).advance 1)

/-- OUT P,Rr (R217). -/
def execOutIo (p : BitVec 6) (r : Reg) (s : State) : Res State :=
  .next ((s.ioWrite p (s.reg r)).advance 1)

/-- LPM (R218): R0. -/
def execLpm (s : State) : Res State :=
  s.loadProg 0 s.lpmAddr

/-- LDS Rd,k (R219). -/
def execLds (d : Reg) (k : Word) (s : State) : Res State :=
  s.loadFrom d k 2

/-- LD Rd,X (R220). -/
def execLdX (d : Reg) (s : State) : Res State :=
  s.loadFrom d (s.ptr .x) 1

/-- LD Rd,X+ (R221, R211). -/
def execLdXInc (d : Reg) (s : State) : Res State :=
  s.loadInc d .x

/-- LD Rd,-X (R222, R211). -/
def execLdXDec (d : Reg) (s : State) : Res State :=
  s.loadDec d .x

/-- LD Rd,Y (R223). -/
def execLdY (d : Reg) (s : State) : Res State :=
  s.loadFrom d (s.ptr .y) 1

/-- LD Rd,Y+ (R224, R211). -/
def execLdYInc (d : Reg) (s : State) : Res State :=
  s.loadInc d .y

/-- LD Rd,-Y (R225, R211). -/
def execLdYDec (d : Reg) (s : State) : Res State :=
  s.loadDec d .y

/-- LDD Rd,Y+q (R226). -/
def execLddY (d : Reg) (q : BitVec 6) (s : State) : Res State :=
  s.loadFrom d (s.dispAddr .y q) 1

/-- LD Rd,Z+ (R227, R211). -/
def execLdZInc (d : Reg) (s : State) : Res State :=
  s.loadInc d .z

/-- LD Rd,-Z (R228, R211). -/
def execLdZDec (d : Reg) (s : State) : Res State :=
  s.loadDec d .z

/-- LDD Rd,Z+q (R229). -/
def execLddZ (d : Reg) (q : BitVec 6) (s : State) : Res State :=
  s.loadFrom d (s.dispAddr .z q) 1

/-- STS k,Rr (R230). -/
def execSts (k : Word) (r : Reg) (s : State) : Res State :=
  s.storeTo k r 2

/-- ST X,Rr (R231). -/
def execStX (r : Reg) (s : State) : Res State :=
  s.storeTo (s.ptr .x) r 1

/-- ST X+,Rr (R232, R211). -/
def execStXInc (r : Reg) (s : State) : Res State :=
  s.storeInc .x r

/-- ST -X,Rr (R233, R211). -/
def execStXDec (r : Reg) (s : State) : Res State :=
  s.storeDec .x r

/-- ST Y,Rr (R234). -/
def execStY (r : Reg) (s : State) : Res State :=
  s.storeTo (s.ptr .y) r 1

/-- ST Y+,Rr (R235, R211). -/
def execStYInc (r : Reg) (s : State) : Res State :=
  s.storeInc .y r

/-- ST -Y,Rr (R236, R211). -/
def execStYDec (r : Reg) (s : State) : Res State :=
  s.storeDec .y r

/-- STD Y+q,Rr (R237). -/
def execStdY (q : BitVec 6) (r : Reg) (s : State) : Res State :=
  s.storeTo (s.dispAddr .y q) r 1

/-- ST Z+,Rr (R238, R211). -/
def execStZInc (r : Reg) (s : State) : Res State :=
  s.storeInc .z r

/-- ST -Z,Rr (R239, R211). -/
def execStZDec (r : Reg) (s : State) : Res State :=
  s.storeDec .z r

/-- STD Z+q,Rr (R240). -/
def execStdZ (q : BitVec 6) (r : Reg) (s : State) : Res State :=
  s.storeTo (s.dispAddr .z q) r 1

/-- PUSH Rr (R241). -/
def execPush (r : Reg) (s : State) : Res State :=
  bindRes (s.push8 (s.reg r)) fun t => .next (t.advance 1)

/-- POP Rd (R242). -/
def execPop (d : Reg) (s : State) : Res State :=
  bindRes s.pop8 fun x => .next ((x.2.setReg d x.1).advance 1)

/-- ELPM (R243): R0. -/
def execElpm (s : State) : Res State :=
  s.loadProg 0 s.elpmAddr

/-- MOVW Rd,Rr (R244). -/
def execMovw (d r : Reg) (s : State) : Res State :=
  .next ((s.setPair d (s.pair r)).advance 1)

/-- LPM Rd,Z (R245). -/
def execLpmZ (d : Reg) (s : State) : Res State :=
  s.loadProg d s.lpmAddr

/-- LPM Rd,Z+ (R246). -/
def execLpmZInc (d : Reg) (s : State) : Res State :=
  s.loadProgInc d

/-- SPM (R247): `literal` is `Prog[Z[15:1]] <- R1:R0`, visible at once (log entry 14). -/
def execSpm (s : State) : Res State :=
  match s.cfg.spmModel with
  | .refuse => .refused .refuseSpm
  | .literal =>
    let a := (s.ptr .z).toNat / 2
    if a < s.cfg.flashWords then .next ((s.setProgWord a (s.pair 0)).advance 1)
    else .fault (.unimplementedProgram a)

/-- ELPM Rd,Z (R248). -/
def execElpmZ (d : Reg) (s : State) : Res State :=
  s.loadProg d s.elpmAddr

/-- ELPM Rd,Z+ (R249). -/
def execElpmZInc (d : Reg) (s : State) : Res State :=
  s.loadProgExtInc d

end Sys2Proof.Machine
end

