-- ==== Sys2Proof/Machine/Fetch.lean ====
section
/-! DEFINITION. Fetching and decoding the instruction at the program counter (R30, R92, R94, R107, R108, R321). -/

namespace Sys2Proof.Machine

/-- The instruction of words `w0` and `w1` on `CORE` (R94), or the refusal of a reserved (R107) or unimplemented (R108) word. -/
def decodeOn (core : CoreKind) (w0 w1 : Word) : Res Instr :=
  match decodeWords w0 w1 with
  | some i => if i.implementedOn core = true then .next i else .refused (.illegalInstruction w0)
  | none => .refused (.illegalInstruction w0)

/-- `w0 = ProgWord(pc)`, and `w1 = ProgWord((pc + 1) mod 2^PC_BITS)` for a two-word instruction (R30); then the decoding. -/
def State.fetch (s : State) : Res Instr :=
  match s.progWord? s.pc.toNat with
  | none => .fault (.fetchOutOfRange s.pc.toNat)
  | some w0 =>
    if isLongWord w0 = true then
      match s.progWord? ((s.pc.toNat + 1) % 2 ^ s.cfg.pcBits) with
      | none => .fault (.fetchOutOfRange ((s.pc.toNat + 1) % 2 ^ s.cfg.pcBits))
      | some w1 => decodeOn s.cfg.core w0 w1
    else decodeOn s.cfg.core w0 0#16

end Sys2Proof.Machine
end

