-- ==== Sys2Proof/Machine/Step.lean ====
section
/-! DEFINITION. One step of the machine (R313, R321), and where a program's words are placed for it. -/

namespace Sys2Proof.Machine

/-- One step: a reset, an interrupt entry, one whole instruction, or nothing on a core that is not `Running` (R313). -/
def step (s : State) : Host.Outcome State Fault Refusal :=
  match s.nextAction with
  | .reset => .next s.popBoundary.takeReset
  | .irq n => s.popBoundary.enterIrq n
  | .idle => .next s.popBoundary
  | .run => bindRes s.fetch fun i => exec i s.beginInstr

/-- `s` with the instruction of bits `w` stored at its program counter (R70: low byte of a word first), zeros after it up to two
words, running, and nothing presented at the coming boundary: the very next step runs it. This stands for the loading of a
program from outside the machine (log entry 11). -/
def State.withFetchWord (s : State) (nbits w : Nat) : State :=
  let m := w % 2 ^ nbits
  let t := (s.setProgWord s.pc.toNat (BitVec.ofNat 16 m)).setProgWord ((s.pc.toNat + 1) % 2 ^ s.cfg.pcBits)
    (BitVec.ofNat 16 (m / 65536))
  { t with runState := .running, boundaries := if s.boundaries = [] then [] else ⟨false, []⟩ :: s.boundaries.tail }

end Sys2Proof.Machine
end

