-- ==== Sys2Proof/Safety.lean ====
section
/-! DEFINITION. The vocabulary of the statements: what an instruction leaves unchanged, the data addresses it stores to, the
registers and flags it may write (R33), the reserved words (R107), and the invariant of the machine. -/

namespace Sys2Proof.Machine

/-! ### Frames -/

/-- Every register but those of `but` is as before. -/
def SameRegs (but : List Reg) (s t : State) : Prop := ∀ i : Reg, i ∉ but → t.reg i = s.reg i

/-- Every flag but those of `but` is as before. -/
def SameFlags (but : List Flag) (s t : State) : Prop := ∀ b : Flag, b ∉ but → t.flag b = s.flag b

/-- Every SRAM byte is as before. -/
def SameSram (s t : State) : Prop := ∀ a : Word, t.sramByte? a = s.sramByte? a

/-- The environment's data and the free values are as before. -/
structure SameEnv (s t : State) : Prop where
  boundaries : t.boundaries = s.boundaries
  ioAnswers : t.ioAnswers = s.ioAnswers
  events : t.events = s.events
  draws : t.draws = s.draws

/-- Program memory, the configuration, RAMPZ, EIND, the hardware stack and the run state are as before. -/
structure SameRest (s t : State) : Prop where
  cfg : t.cfg = s.cfg
  rampz : t.rampz = s.rampz
  eind : t.eind = s.eind
  hwStack : t.hwStack = s.hwStack
  runState : t.runState = s.runState
  prog : ∀ b : Nat, t.progByte b = s.progByte b

/-- Everything is as before but the registers `regs`, the flags `flags` and the program counter. -/
structure Frame (regs : List Reg) (flags : List Flag) (s t : State) : Prop where
  regs : SameRegs regs s t
  flags : SameFlags flags s t
  sp : t.sp = s.sp
  irqShadow : t.irqShadow = s.irqShadow
  sram : SameSram s t
  env : SameEnv s t
  rest : SameRest s t

/-- The next instruction in line is `n` words on (R29). -/
def GoesOn (n : Nat) (s t : State) : Prop := t.pc = s.cfg.wrapPc (s.pc.toNat + n)

/-! ### Reading and writing a location, as relations between the states before and after -/

/-- Reading I/O location `p` gave `v` (R65, R66): a core register's byte, or the environment's next answer, or a free value. -/
def IoReadEffect (p : BitVec 6) (v : Byte) (s t : State) : Prop :=
  match s.coreIo? p with
  | some x => v = x ∧ SameEnv s t
  | none =>
    t.events = .ioRead p v :: s.events ∧ t.boundaries = s.boundaries ∧
      match s.ioAnswers with
      | x :: rest => v = x ∧ t.ioAnswers = rest ∧ t.draws = s.draws
      | [] => v = Config.freeByte s.draws ∧ t.ioAnswers = [] ∧ t.draws = s.draws + 1

/-- Reading data address `a` gave `v` (R63, R345). -/
def MemReadEffect (a : Word) (v : Byte) (s t : State) : Prop :=
  match dataRegion s.cfg a with
  | .register => v = s.reg (regOfData a) ∧ SameEnv s t
  | .io => IoReadEffect (ioOfData a) v s t
  | .sram =>
    match s.sramByte? a with
    | some x => v = x ∧ SameEnv s t
    | none =>
      v = Config.freeByte s.draws ∧ t.draws = s.draws + 1 ∧ t.boundaries = s.boundaries ∧ t.ioAnswers = s.ioAnswers ∧
        t.events = s.events
  | .unimplemented => False

/-- What a load leaves beside register `d`, the registers `regs` and the environment. -/
structure LoadFrame (regs : List Reg) (s t : State) : Prop where
  regs : SameRegs regs s t
  sreg : t.sreg = s.sreg
  sp : t.sp = s.sp
  irqShadow : t.irqShadow = s.irqShadow
  sram : SameSram s t
  rest : SameRest s t

/-- Writing `v` to I/O location `p` (R34, R43, R65, R66), but for SP. -/
structure IoWriteEffect (p : BitVec 6) (v : Byte) (s t : State) : Prop where
  sreg : t.sreg = if p = 0x3F#6 then v else s.sreg
  irqShadow : t.irqShadow = if p = 0x3F#6 then s.irqShadow || (!s.flag flagI && v.msb) else s.irqShadow
  eind : t.eind = if p = 0x3C#6 ∧ s.cfg.hasEind = true then v else s.eind
  rampz : t.rampz = if p = 0x3B#6 ∧ s.cfg.hasRampz = true then v else s.rampz
  events : t.events = if s.coreIo? p = none then .ioWrite p v :: s.events else s.events
  cfg : t.cfg = s.cfg
  hwStack : t.hwStack = s.hwStack
  runState : t.runState = s.runState
  boundaries : t.boundaries = s.boundaries
  ioAnswers : t.ioAnswers = s.ioAnswers
  draws : t.draws = s.draws
  prog : ∀ b : Nat, t.progByte b = s.progByte b

/-- SP after a write of `v` to I/O location `p` (R35, R65). -/
def spAfterIoWrite (p : BitVec 6) (v : Byte) (s : State) : Word :=
  if p = 0x3E#6 ∧ s.cfg.hasSp = true then wordOfBytes (loByte s.sp) v
  else if p = 0x3D#6 ∧ s.cfg.hasSp = true then wordOfBytes v (hiByte s.sp)
  else s.sp

/-- SP after a store of `v` to data address `a` (R64). -/
def spAfterStore (a : Word) (v : Byte) (s : State) : Word :=
  if dataRegion s.cfg a = .io then spAfterIoWrite (ioOfData a) v s else s.sp

/-- Storing `v` to data address `a` (R64), the registers `regs` apart, and but for SP and the program counter: the one location
holds `v`, every other register and byte is as before. -/
def StoreEffect (regs : List Reg) (a : Word) (v : Byte) (s t : State) : Prop :=
  match dataRegion s.cfg a with
  | .register =>
    t.reg (regOfData a) = v ∧ SameRegs (regOfData a :: regs) s t ∧ t.sreg = s.sreg ∧ t.irqShadow = s.irqShadow ∧
      SameSram s t ∧ SameEnv s t ∧ SameRest s t
  | .io => SameRegs regs s t ∧ SameSram s t ∧ IoWriteEffect (ioOfData a) v s t
  | .sram =>
    t.sramByte? a = some v ∧ (∀ b : Word, b ≠ a → t.sramByte? b = s.sramByte? b) ∧ SameRegs regs s t ∧
      t.sreg = s.sreg ∧ t.irqShadow = s.irqShadow ∧ SameEnv s t ∧ SameRest s t
  | .unimplemented => False

/-- Nothing is implemented at data address `a`: above I/O and above `SRAM_END`, or above the registers on a core without SRAM (R63, R64, R85). -/
def NoDataAt (c : Config) (a : Word) : Prop :=
  0x5F < a.toNat ∧ c.sramEnd < a.toNat ∨ 0x1F < a.toNat ∧ c.hasSp = false

/-! ### The stack -/

/-- The `n` bytes from SP downwards are implemented, so that `n` bytes can be pushed (R72). -/
def CanPush (n : Nat) (s : State) : Prop :=
  s.cfg.hasSp = true ∧ ∀ j, j < n → dataRegion s.cfg (s.sp - BitVec.ofNat 16 j) ≠ .unimplemented

/-- The `n` bytes above SP are implemented, so that `n` bytes can be popped (R72). -/
def CanPop (n : Nat) (s : State) : Prop :=
  s.cfg.hasSp = true ∧ ∀ j, 1 ≤ j → j ≤ n → dataRegion s.cfg (s.sp + BitVec.ofNat 16 j) ≠ .unimplemented

/-- The return address `ret` has been pushed on the data stack (R73): low byte at the old SP, the next below it, SP less by `RET_BYTES`;
every SRAM byte and every register at no pushed address is as before, and where no pushed byte falls into the I/O space nothing
else changes either. -/
structure Pushed (ret : PcWord) (s t : State) : Prop where
  sp : t.sp = s.sp - BitVec.ofNat 16 s.cfg.retBytes
  sram : ∀ j, j < s.cfg.retBytes → dataRegion s.cfg (s.sp - BitVec.ofNat 16 j) = .sram →
    t.sramByte? (s.sp - BitVec.ofNat 16 j) = some (pcByte ret j)
  reg : ∀ j, j < s.cfg.retBytes → dataRegion s.cfg (s.sp - BitVec.ofNat 16 j) = .register →
    t.reg (regOfData (s.sp - BitVec.ofNat 16 j)) = pcByte ret j
  sramFrame : ∀ a : Word, (∀ j, j < s.cfg.retBytes → a ≠ s.sp - BitVec.ofNat 16 j) → t.sramByte? a = s.sramByte? a
  regFrame : ∀ i : Reg, (∀ j, j < s.cfg.retBytes → i.val ≠ (s.sp - BitVec.ofNat 16 j).toNat) → t.reg i = s.reg i
  cfg : t.cfg = s.cfg
  hwStack : t.hwStack = s.hwStack
  boundaries : t.boundaries = s.boundaries
  ioAnswers : t.ioAnswers = s.ioAnswers
  draws : t.draws = s.draws
  prog : ∀ b : Nat, t.progByte b = s.progByte b
  noIo : (∀ j, j < s.cfg.retBytes → dataRegion s.cfg (s.sp - BitVec.ofNat 16 j) ≠ .io) →
    t.rampz = s.rampz ∧ t.eind = s.eind

/-- The byte of a popped return address at `SP + j`, where the core's own memory holds it (R74). -/
def StackHolds (s : State) (j : Nat) (v : Byte) : Prop :=
  dataRegion s.cfg (s.sp + BitVec.ofNat 16 j) ≠ .io ∧ s.peek (s.sp + BitVec.ofNat 16 j) = some v

/-- A return address has been popped from the data stack (R74): SP greater by `RET_BYTES`, the address that of the bytes above the old SP,
high byte first; nothing else of the core's state changes. -/
structure Popped (s t : State) : Prop where
  sp : t.sp = s.sp + BitVec.ofNat 16 s.cfg.retBytes
  two : ∀ b1 b0, s.cfg.retBytes = 2 → StackHolds s 1 b1 → StackHolds s 2 b0 →
    t.pc = s.cfg.wrapPc (b1.toNat * 256 + b0.toNat) ∧ SameEnv s t
  three : ∀ b2 b1 b0, s.cfg.retBytes = 3 → StackHolds s 1 b2 → StackHolds s 2 b1 → StackHolds s 3 b0 →
    t.pc = s.cfg.wrapPc (b2.toNat * 65536 + b1.toNat * 256 + b0.toNat) ∧ SameEnv s t
  regs : SameRegs [] s t
  sram : SameSram s t
  rest : SameRest s t

/-! ### What each instruction may write -/

/-- The data address of I/O location `p` (R62). -/
def dataOfIo (p : BitVec 6) : Word := BitVec.ofNat 16 (0x20 + p.toNat)

/-- The data addresses that a pushed return address takes (R73). -/
def State.pushAddrs (s : State) : List Word :=
  if s.cfg.hasSp = true then (List.range s.cfg.retBytes).map fun j => s.sp - BitVec.ofNat 16 j else []

/-- The data addresses an instruction stores to; I/O writes by OUT, SBI and CBI are stores to the location's data address (R62). -/
def storeAddrs (s : State) : Instr → List Word
  | .rcall _ => s.pushAddrs
  | .stZ _ => [s.ptr .z]
  | .outIo p _ => [dataOfIo p]
  | .sbi p _ => [dataOfIo (ioLow p)]
  | .cbi p _ => [dataOfIo (ioLow p)]
  | .icall => s.pushAddrs
  | .sts k _ => [k]
  | .stX _ => [s.ptr .x]
  | .stXInc _ => [s.ptr .x]
  | .stXDec _ => [s.decAddr .x]
  | .stY _ => [s.ptr .y]
  | .stYInc _ => [s.ptr .y]
  | .stYDec _ => [s.decAddr .y]
  | .stdY q _ => [s.dispAddr .y q]
  | .stZInc _ => [s.ptr .z]
  | .stZDec _ => [s.decAddr .z]
  | .stdZ q _ => [s.dispAddr .z q]
  | .push _ => [s.sp]
  | .call _ => s.pushAddrs
  | .eicall => s.pushAddrs
  | .add _ _ | .adc _ _ | .sub _ _ | .subi _ _ | .sbc _ _ | .sbci _ _ | .and _ _ | .andi _ _ | .or _ _ | .ori _ _
  | .eor _ _ | .com _ | .neg _ | .sbr _ _ | .cbr _ _ | .inc _ | .dec _ | .tst _ | .clr _ | .ser _ | .rjmp _ | .ret
  | .reti | .cpse _ _ | .cp _ _ | .cpc _ _ | .cpi _ _ | .sbrc _ _ | .sbrs _ _ | .sbic _ _ | .sbis _ _ | .brbs _ _
  | .brbc _ _ | .breq _ | .brne _ | .brcs _ | .brcc _ | .brsh _ | .brlo _ | .brmi _ | .brpl _ | .brge _ | .brlt _
  | .brhs _ | .brhc _ | .brts _ | .brtc _ | .brvs _ | .brvc _ | .brie _ | .brid _ | .mov _ _ | .ldi _ _ | .ldZ _
  | .inIo _ _ | .lsl _ | .lsr _ | .rol _ | .ror _ | .asr _ | .swap _ | .bset _ | .bclr _ | .bst _ _ | .bld _ _ | .sec
  | .clc | .sen | .cln | .sez | .clz | .sei | .cli | .ses | .cls | .sev | .clv | .setT | .clt | .seh | .clh | .nop
  | .sleep | .wdr | .lpm | .adiw _ _ | .sbiw _ _ | .ijmp | .lds _ _ | .ldX _ | .ldXInc _ | .ldXDec _ | .ldY _
  | .ldYInc _ | .ldYDec _ | .lddY _ _ | .ldZInc _ | .ldZDec _ | .lddZ _ _ | .pop _ | .jmp _ | .elpm | .mul _ _
  | .muls _ _ | .mulsu _ _ | .fmul _ _ | .fmuls _ _ | .fmulsu _ _ | .movw _ _ | .lpmZ _ | .lpmZInc _ | .spm | .brk
  | .elpmZ _ | .elpmZInc _ | .eijmp => []

/-- The working registers an instruction names as destination, with the pointer it updates and R1:R0 where it writes them. -/
def destRegs : Instr → List Reg
  | .add d _ | .adc d _ | .sub d _ | .subi d _ | .sbc d _ | .sbci d _ | .and d _ | .andi d _ | .or d _ | .ori d _
  | .eor d _ | .com d | .neg d | .sbr d _ | .cbr d _ | .inc d | .dec d | .tst d | .clr d | .ser d | .mov d _
  | .ldi d _ | .ldZ d | .inIo d _ | .lsl d | .lsr d | .rol d | .ror d | .asr d | .swap d | .bld d _ | .lds d _
  | .ldX d | .ldY d | .lddY d _ | .lddZ d _ | .pop d | .lpmZ d | .elpmZ d => [d]
  | .lpm | .elpm => [0]
  | .adiw d _ | .sbiw d _ | .movw d _ => [d, d + 1]
  | .ldXInc d | .ldXDec d => [d, 26, 27]
  | .ldYInc d | .ldYDec d => [d, 28, 29]
  | .ldZInc d | .ldZDec d | .lpmZInc d | .elpmZInc d => [d, 30, 31]
  | .stXInc _ | .stXDec _ => [26, 27]
  | .stYInc _ | .stYDec _ => [28, 29]
  | .stZInc _ | .stZDec _ => [30, 31]
  | .mul _ _ | .muls _ _ | .mulsu _ _ | .fmul _ _ | .fmuls _ _ | .fmulsu _ _ => [0, 1]
  | .rjmp _ | .rcall _ | .ret | .reti | .cpse _ _ | .cp _ _ | .cpc _ _ | .cpi _ _ | .sbrc _ _ | .sbrs _ _ | .sbic _ _
  | .sbis _ _ | .brbs _ _ | .brbc _ _ | .breq _ | .brne _ | .brcs _ | .brcc _ | .brsh _ | .brlo _ | .brmi _ | .brpl _
  | .brge _ | .brlt _ | .brhs _ | .brhc _ | .brts _ | .brtc _ | .brvs _ | .brvc _ | .brie _ | .brid _ | .stZ _
  | .outIo _ _ | .sbi _ _ | .cbi _ _ | .bset _ | .bclr _ | .bst _ _ | .sec | .clc | .sen | .cln | .sez | .clz | .sei
  | .cli | .ses | .cls | .sev | .clv | .setT | .clt | .seh | .clh | .nop | .sleep | .wdr | .ijmp | .icall | .sts _ _
  | .stX _ | .stY _ | .stdY _ _ | .stdZ _ _ | .push _ | .jmp _ | .call _ | .spm | .brk | .eijmp | .eicall => []

/-- The flags an instruction may write, by the table of R33; a store to the SREG location writes all eight besides. -/
def flagsWritten : Instr → List Flag
  | .add _ _ | .adc _ _ | .sub _ _ | .subi _ _ | .sbc _ _ | .sbci _ _ | .neg _ | .cp _ _ | .cpc _ _ | .cpi _ _
  | .lsl _ | .rol _ => [flagH, flagS, flagV, flagN, flagZ, flagC]
  | .and _ _ | .andi _ _ | .or _ _ | .ori _ _ | .eor _ _ | .sbr _ _ | .cbr _ _ | .inc _ | .dec _ | .tst _ | .clr _ => [flagS, flagV, flagN, flagZ]
  | .com _ | .lsr _ | .ror _ | .asr _ | .adiw _ _ | .sbiw _ _ => [flagS, flagV, flagN, flagZ, flagC]
  | .reti | .sei | .cli => [flagI]
  | .bset b | .bclr b => [b]
  | .bst _ _ | .setT | .clt => [flagT]
  | .sec | .clc => [flagC]
  | .sen | .cln => [flagN]
  | .sez | .clz => [flagZ]
  | .ses | .cls => [flagS]
  | .sev | .clv => [flagV]
  | .seh | .clh => [flagH]
  | .mul _ _ | .muls _ _ | .mulsu _ _ | .fmul _ _ | .fmuls _ _ | .fmulsu _ _ => [flagZ, flagC]
  | .ser _ | .rjmp _ | .rcall _ | .ret | .cpse _ _ | .sbrc _ _ | .sbrs _ _ | .sbic _ _ | .sbis _ _ | .brbs _ _
  | .brbc _ _ | .breq _ | .brne _ | .brcs _ | .brcc _ | .brsh _ | .brlo _ | .brmi _ | .brpl _ | .brge _ | .brlt _
  | .brhs _ | .brhc _ | .brts _ | .brtc _ | .brvs _ | .brvc _ | .brie _ | .brid _ | .mov _ _ | .ldi _ _ | .ldZ _
  | .stZ _ | .inIo _ _ | .outIo _ _ | .sbi _ _ | .cbi _ _ | .swap _ | .bld _ _ | .nop | .sleep | .wdr | .lpm | .ijmp
  | .icall | .lds _ _ | .ldX _ | .ldXInc _ | .ldXDec _ | .ldY _ | .ldYInc _ | .ldYDec _ | .lddY _ _ | .ldZInc _
  | .ldZDec _ | .lddZ _ _ | .sts _ _ | .stX _ | .stXInc _ | .stXDec _ | .stY _ | .stYInc _ | .stYDec _ | .stdY _ _
  | .stZInc _ | .stZDec _ | .stdZ _ _ | .push _ | .pop _ | .jmp _ | .call _ | .elpm | .movw _ _ | .lpmZ _
  | .lpmZInc _ | .spm | .brk | .elpmZ _ | .elpmZInc _ | .eijmp | .eicall => []

/-- The instructions that may change program memory (R82). -/
def writesProg (i : Instr) : Prop := i = .spm

/-! ### Reserved words -/

/-- The seven classes of R107. -/
def ReservedWord (w : Word) : Prop :=
  (w.toNat / 256 = 0 ∧ w ≠ 0x0000#16) ∨
  (w.toNat / 512 = 0x48 ∧ w.toNat % 16 ∈ [3, 8, 11]) ∨
  (w.toNat / 512 = 0x49 ∧ w.toNat % 16 ∈ [3, 4, 5, 6, 7, 8, 11]) ∨
  (w.toNat / 512 = 0x4A ∧ w.toNat % 16 ∈ [4, 11]) ∨
  (w.toNat / 256 = 0x95 ∧ w.toNat % 16 = 8 ∧ w.toNat / 16 % 16 ∈ [2, 3, 4, 5, 6, 7, 11, 15]) ∨
  (w.toNat / 512 = 0x4A ∧ w.toNat % 16 = 9 ∧ w ∉ [0x9409#16, 0x9419#16, 0x9509#16, 0x9519#16]) ∨
  (w.toNat / 2048 = 0x1F ∧ w.toNat / 8 % 2 = 1)

/-! ### The end of a run (R354) -/

/-- The run has ended at word address `a`: the core runs an RJMP to itself there, and no further request can be taken, because I = 0 or
because the environment presents none. -/
def State.Ended (s : State) (a : PcWord) : Prop :=
  s.runState = .running ∧ s.pc = a ∧ s.progWord? a.toNat = some 0xCFFF#16 ∧
    (s.flag flagI = false ∨ ∀ b ∈ s.boundaries, b.irqs = [])

/-- The run hangs: stopped, or asleep with I = 0. -/
def State.Hung (s : State) : Prop := s.runState = .stopped ∨ (s.runState = .sleeping ∧ s.flag flagI = false)

/-! ### The invariant -/

/-- What every step keeps: legal parameters, a program counter within `PC_BITS` (R28), memories in canonical form and inside the
implemented ranges (R60, R67), a hardware stack within its depth that exists only without SP (R45, R73), registers that do
not exist at 0 (R37, R38), and a run state that only the parameters allow (R44). -/
structure State.Inv (s : State) : Prop where
  cfg : s.cfg.ok = true
  pc : s.pc.toNat < 2 ^ s.cfg.pcBits
  sramWf : s.sram.wf sramBlank = true
  sramRange : ∀ c ∈ s.sram, 0x60 ≤ c.1 ∧ c.1 ≤ s.cfg.sramEnd
  progWf : s.prog.wf progBlank = true
  progRange : ∀ c ∈ s.prog, c.1 < 2 * s.cfg.flashWords
  hwDepth : s.hwStack.length ≤ s.cfg.hwStackDepth
  hwAbsent : s.cfg.hasSp = true → s.hwStack = []
  hwAddrs : ∀ a ∈ s.hwStack, a.toNat < 2 ^ s.cfg.pcBits
  rampz : s.cfg.hasRampz = false → s.rampz = 0#8
  eind : s.cfg.hasEind = false → s.eind = 0#8
  sleeping : s.runState = .sleeping → s.cfg.sleepModel = .wait
  stopped : s.runState = .stopped → s.cfg.breakModel = .stop

end Sys2Proof.Machine
end

