-- ==== Sys2Proof/Certificates/Slice0/Obligations.lean ====
section
/-! DEFINITION. The statements. The frames are those of Sys2Proof/Safety.lean: `Frame regs flags s t` says that everything but the
listed registers, the listed flags and the program counter is as before, `GoesOn n s t` that the next instruction in line follows. A
statement of an instruction's effect concludes that `exec` answers a next state, for every state and every operand its hypotheses on the
state and the operands admit. -/

section
open Sys2Proof Sys2Proof.Machine

/-! ### Encoding and decoding -/

/-- Words written out from the patterns of R106 decode to the instruction they stand for. -/
def Obligations.KnownWordsDecode : Prop :=
  decodeWords 0x0C12#16 0#16 = some (.add 1 2) ∧ decodeWords 0x5F12#16 0#16 = some (.subi 17 0xF2#8) ∧
  decodeWords 0x96CF#16 0#16 = some (.adiw 24 63#6) ∧ decodeWords 0x0309#16 0#16 = some (.fmul 16 17) ∧
  decodeWords 0xF3E9#16 0#16 = some (.brbs 1 0x7D#7) ∧ decodeWords 0xAC5F#16 0#16 = some (.lddY 5 63#6) ∧
  decodeWords 0x9300#16 0x005D#16 = some (.sts 0x005D#16 16) ∧ decodeWords 0xB60F#16 0#16 = some (.inIo 0 0x3F#6) ∧
  decodeWords 0x941F#16 0x3456#16 = some (.call 0x33456#22) ∧ decodeWords 0x9AC3#16 0#16 = some (.sbi 0x18#5 3) ∧
  decodeWords 0xFA36#16 0#16 = some (.bst 3 6) ∧ decodeWords 0x9598#16 0#16 = some .brk ∧
  decodeWords 0x01CF#16 0#16 = some (.movw 24 30) ∧ decodeWords 0x9419#16 0#16 = some .eijmp

/-- Decoding the bytes of a well-formed instruction, whatever follows them, gives that instruction back (an alias row its
expansion, R105) and leaves what follows. -/
def Obligations.DecodeOfEncode : Prop :=
  ∀ i : Instr, i.wellFormed = true → ∀ rest : List Byte,
    decodeBytes (encodeBytes i ++ rest) = .ok (i.canonical, rest)

/-- What a first word decodes to has an encoding, is no alias row, and is encoded by exactly the words it was read from; it has two
words exactly when the first is one of LDS, STS, JMP, CALL (R92). -/
def Obligations.EncodeOfDecode : Prop :=
  ∀ (w w1 : Word) (i : Instr), decodeWords w w1 = some i →
    i.wellFormed = true ∧ i.canonical = i ∧ encode i = (if isLongWord w = true then [w, w1] else [w]) ∧
      i.len = (if isLongWord w = true then 2 else 1)

/-- The words that no row matches are exactly the seven classes of R107. -/
def Obligations.ReservedWordsAreTheSevenClasses : Prop :=
  ∀ w w1 : Word, decodeWords w w1 = none ↔ ReservedWord w

/-- An alias row has the meaning of its expansion (R105). -/
def Obligations.AliasHasMeaningOfExpansion : Prop :=
  ∀ (i : Instr) (s : State), exec i s = exec i.canonical s

/-! ### Registers, program counter, flag formulas -/

/-- `pc <- t` stores `t mod 2^PC_BITS` (R28), and a relative target is `(pc + 1 + k) mod 2^PC_BITS` (R160). -/
def Obligations.ProgramCounterWraps : Prop :=
  ∀ (s : State) (n : Nat) (k : Int), s.cfg.pcBits ≤ 22 →
    (s.setPc n).pc.toNat = n % 2 ^ s.cfg.pcBits ∧
    ((s.relTarget k : Nat) : Int) = ((s.pc.toNat : Int) + 1 + k) % ((2 ^ s.cfg.pcBits : Nat) : Int) ∧
    (s.setPc (s.relTarget k)).pc.toNat = s.relTarget k

/-- `AddFlags(a, b, c)` (R120), in the arithmetic and the bitwise forms and by the signed reading of V. -/
def Obligations.AddFlagsFormulas : Prop :=
  ∀ (a b : Byte) (c : Bool),
    let o := addFlags a b c
    o.r.toNat = (a.toNat + b.toNat + c.toNat) % 256 ∧
    (o.h = true ↔ a.toNat % 16 + b.toNat % 16 + c.toNat > 15) ∧
    o.h = ((a[3] && b[3]) || (b[3] && !o.r[3]) || (!o.r[3] && a[3])) ∧
    (o.c = true ↔ a.toNat + b.toNat + c.toNat > 255) ∧
    o.c = ((a[7] && b[7]) || (b[7] && !o.r[7]) || (!o.r[7] && a[7])) ∧
    (o.v = true ↔ a[7] = b[7] ∧ o.r[7] ≠ a[7]) ∧
    o.v = ((a[7] && b[7] && !o.r[7]) || (!a[7] && !b[7] && o.r[7])) ∧
    (o.v = true ↔ ¬ (-128 ≤ a.toInt + b.toInt + c.toNat ∧ a.toInt + b.toInt + c.toNat ≤ 127)) ∧
    o.n = o.r[7] ∧ (o.z = true ↔ o.r = 0#8) ∧ o.s = (o.n ^^ o.v)

/-- `SubFlags(a, b, c)` (R121), in the arithmetic and the bitwise forms and by the signed reading of V; C = 1 is unsigned less, S = 1
signed less. -/
def Obligations.SubFlagsFormulas : Prop :=
  ∀ (a b : Byte) (c : Bool),
    let o := subFlags a b c
    (o.r.toNat : Int) = ((a.toNat : Int) - b.toNat - c.toNat) % 256 ∧
    (o.h = true ↔ a.toNat % 16 < b.toNat % 16 + c.toNat) ∧
    o.h = ((!a[3] && b[3]) || (b[3] && o.r[3]) || (o.r[3] && !a[3])) ∧
    (o.c = true ↔ a.toNat < b.toNat + c.toNat) ∧
    o.c = ((!a[7] && b[7]) || (b[7] && o.r[7]) || (o.r[7] && !a[7])) ∧
    (o.v = true ↔ a[7] ≠ b[7] ∧ o.r[7] ≠ a[7]) ∧
    o.v = ((a[7] && !b[7] && !o.r[7]) || (!a[7] && b[7] && o.r[7])) ∧
    (o.v = true ↔ ¬ (-128 ≤ a.toInt - b.toInt - c.toNat ∧ a.toInt - b.toInt - c.toNat ≤ 127)) ∧
    o.n = o.r[7] ∧ (o.z = true ↔ o.r = 0#8) ∧ o.s = (o.n ^^ o.v) ∧
    (o.s = true ↔ a.toInt < b.toInt + c.toNat)

/-- Every instruction that may write N or V leaves S = N ^ V, the single-flag instructions apart (R126). -/
def Obligations.SignFollowsNAndV : Prop :=
  ∀ (i : Instr) (s t : State), exec i s = .next t → flagN ∈ flagsWritten i → flagS ∈ flagsWritten i →
    t.flag flagS = (t.flag flagN ^^ t.flag flagV)

/-! ### Arithmetic and logic -/

/-- The register `d`, the six flags and the frame after an addition of `a`, `b` and carry `c` (R120). -/
def Sys2Proof.Machine.AddResult (d : Reg) (a b : Byte) (c : Bool) (s t : State) : Prop :=
  (t.reg d).toNat = (a.toNat + b.toNat + c.toNat) % 256 ∧
  (t.flag flagH = true ↔ a.toNat % 16 + b.toNat % 16 + c.toNat > 15) ∧
  (t.flag flagC = true ↔ a.toNat + b.toNat + c.toNat > 255) ∧
  (t.flag flagV = true ↔ ¬ (-128 ≤ a.toInt + b.toInt + c.toNat ∧ a.toInt + b.toInt + c.toNat ≤ 127)) ∧
  (t.flag flagN = true ↔ 128 ≤ (t.reg d).toNat) ∧ (t.flag flagZ = true ↔ t.reg d = 0#8) ∧
  t.flag flagS = (t.flag flagN ^^ t.flag flagV) ∧
  GoesOn 1 s t ∧ Frame [d] [flagH, flagS, flagV, flagN, flagZ, flagC] s t

/-- ADD, ADC, LSL, ROL (R128, R129, R262, R264). -/
def Obligations.AddAdcLslRolResults : Prop :=
  ∀ (d r : Reg) (s : State),
    (∃ t, exec (.add d r) s = .next t ∧ AddResult d (s.reg d) (s.reg r) false s t) ∧
    (∃ t, exec (.adc d r) s = .next t ∧ AddResult d (s.reg d) (s.reg r) (s.flag flagC) s t) ∧
    (∃ t, exec (.lsl d) s = .next t ∧ AddResult d (s.reg d) (s.reg d) false s t ∧
      t.reg d = s.reg d <<< 1 ∧ t.flag flagC = (s.reg d)[7] ∧ t.flag flagS = (s.reg d)[7] ∧
      t.flag flagV = ((s.reg d)[7] ^^ (s.reg d)[6]) ∧ t.flag flagH = (s.reg d)[3]) ∧
    (∃ t, exec (.rol d) s = .next t ∧ AddResult d (s.reg d) (s.reg d) (s.flag flagC) s t ∧
      t.reg d = (s.reg d <<< 1) ||| (if s.flag flagC = true then 1#8 else 0#8) ∧ t.flag flagC = (s.reg d)[7] ∧
      t.flag flagS = (s.reg d)[7] ∧ t.flag flagV = ((s.reg d)[7] ^^ (s.reg d)[6]) ∧ t.flag flagH = (s.reg d)[3])

/-- The flags of `a - b - c` with result `v` (R121), where `z` is the Z that comes out. -/
def Sys2Proof.Machine.SubFlagsAre (a b : Byte) (c z : Bool) (v : Byte) (t : State) : Prop :=
  (v.toNat : Int) = ((a.toNat : Int) - b.toNat - c.toNat) % 256 ∧
  (t.flag flagH = true ↔ a.toNat % 16 < b.toNat % 16 + c.toNat) ∧
  (t.flag flagC = true ↔ a.toNat < b.toNat + c.toNat) ∧
  (t.flag flagV = true ↔ ¬ (-128 ≤ a.toInt - b.toInt - c.toNat ∧ a.toInt - b.toInt - c.toNat ≤ 127)) ∧
  (t.flag flagN = true ↔ 128 ≤ v.toNat) ∧ (t.flag flagZ = true ↔ v = 0#8 ∧ z = true) ∧
  t.flag flagS = (t.flag flagN ^^ t.flag flagV)

/-- The register `d`, the six flags and the frame after a subtraction. -/
def Sys2Proof.Machine.SubResult (d : Reg) (a b : Byte) (c z : Bool) (s t : State) : Prop :=
  SubFlagsAre a b c z (t.reg d) t ∧ GoesOn 1 s t ∧ Frame [d] [flagH, flagS, flagV, flagN, flagZ, flagC] s t

/-- SUB, SUBI, SBC, SBCI, NEG (R130 to R133, R140); the Z of SBC and SBCI is never set, only kept (R123). -/
def Obligations.SubtractResults : Prop :=
  ∀ (d r : Reg) (k : Byte) (s : State),
    (∃ t, exec (.sub d r) s = .next t ∧ SubResult d (s.reg d) (s.reg r) false true s t) ∧
    (∃ t, exec (.subi d k) s = .next t ∧ SubResult d (s.reg d) k false true s t) ∧
    (∃ t, exec (.sbc d r) s = .next t ∧ SubResult d (s.reg d) (s.reg r) (s.flag flagC) (s.flag flagZ) s t) ∧
    (∃ t, exec (.sbci d k) s = .next t ∧ SubResult d (s.reg d) k (s.flag flagC) (s.flag flagZ) s t) ∧
    (∃ t, exec (.neg d) s = .next t ∧ SubResult d 0#8 (s.reg d) false true s t ∧
      (t.flag flagC = true ↔ t.reg d ≠ 0#8) ∧ (t.flag flagV = true ↔ t.reg d = 0x80#8) ∧
      t.flag flagH = ((t.reg d)[3] || (s.reg d)[3]))

/-- CP, CPC, CPI (R168 to R170): the flags of the subtraction, no register. -/
def Obligations.CompareResults : Prop :=
  ∀ (d r : Reg) (k : Byte) (s : State),
    (∃ t v, exec (.cp d r) s = .next t ∧ SubFlagsAre (s.reg d) (s.reg r) false true v t ∧ GoesOn 1 s t ∧
      Frame [] [flagH, flagS, flagV, flagN, flagZ, flagC] s t) ∧
    (∃ t v, exec (.cpc d r) s = .next t ∧ SubFlagsAre (s.reg d) (s.reg r) (s.flag flagC) (s.flag flagZ) v t ∧ GoesOn 1 s t ∧
      Frame [] [flagH, flagS, flagV, flagN, flagZ, flagC] s t) ∧
    (∃ t v, exec (.cpi d k) s = .next t ∧ SubFlagsAre (s.reg d) k false true v t ∧ GoesOn 1 s t ∧
      Frame [] [flagH, flagS, flagV, flagN, flagZ, flagC] s t)

/-- A compare of two bytes and then of the next two with carry decides equality, unsigned and signed order of the two 16-bit values;
ADD and ADC, and SUB and SBC, so chained are the 16-bit sum and difference with their carry, where the first does not write
the high byte that the second still reads (R120, R121, R123). -/
def Obligations.TwoByteChains : Prop :=
  ∀ (d r : Reg) (s : State),
    (∃ t u, exec (.cp d r) s = .next t ∧ exec (.cpc (d + 1) (r + 1)) t = .next u ∧
      (u.flag flagZ = true ↔ s.pair d = s.pair r) ∧
      (u.flag flagC = true ↔ (s.pair d).toNat < (s.pair r).toNat) ∧
      (u.flag flagS = true ↔ (s.pair d).toInt < (s.pair r).toInt)) ∧
    (d ≠ r + 1 → ∃ t u, exec (.add d r) s = .next t ∧ exec (.adc (d + 1) (r + 1)) t = .next u ∧
      u.pair d = s.pair d + s.pair r ∧
      (u.flag flagC = true ↔ (s.pair d).toNat + (s.pair r).toNat > 65535)) ∧
    (d ≠ r + 1 → ∃ t u, exec (.sub d r) s = .next t ∧ exec (.sbc (d + 1) (r + 1)) t = .next u ∧
      u.pair d = s.pair d - s.pair r ∧
      (u.flag flagC = true ↔ (s.pair d).toNat < (s.pair r).toNat) ∧ (u.flag flagZ = true ↔ s.pair d = s.pair r))

/-- Result `v` in `d`, V cleared, N and Z of `v`, S = N, C and H as before (R122). -/
def Sys2Proof.Machine.LogicResult (d : Reg) (v : Byte) (s t : State) : Prop :=
  t.reg d = v ∧ t.flag flagV = false ∧ t.flag flagN = v[7] ∧ (t.flag flagZ = true ↔ v = 0#8) ∧ t.flag flagS = v[7] ∧
  GoesOn 1 s t ∧ Frame [d] [flagS, flagV, flagN, flagZ] s t

/-- AND, ANDI, OR, ORI, EOR, and SBR, CBR, TST, CLR (R134 to R138, R141, R142, R145, R146). -/
def Obligations.LogicResults : Prop :=
  ∀ (d r : Reg) (k : Byte) (s : State),
    (∃ t, exec (.and d r) s = .next t ∧ LogicResult d (s.reg d &&& s.reg r) s t) ∧
    (∃ t, exec (.andi d k) s = .next t ∧ LogicResult d (s.reg d &&& k) s t) ∧
    (∃ t, exec (.or d r) s = .next t ∧ LogicResult d (s.reg d ||| s.reg r) s t) ∧
    (∃ t, exec (.ori d k) s = .next t ∧ LogicResult d (s.reg d ||| k) s t) ∧
    (∃ t, exec (.eor d r) s = .next t ∧ LogicResult d (s.reg d ^^^ s.reg r) s t) ∧
    (∃ t, exec (.sbr d k) s = .next t ∧ LogicResult d (s.reg d ||| k) s t) ∧
    (∃ t, exec (.cbr d k) s = .next t ∧ LogicResult d (s.reg d &&& ~~~k) s t) ∧
    (∃ t, exec (.tst d) s = .next t ∧ LogicResult d (s.reg d) s t) ∧
    (∃ t, exec (.clr d) s = .next t ∧ LogicResult d 0#8 s t)

/-- COM sets C; INC and DEC leave C and H; V of INC is 1 exactly when the old value was 0x7F, of DEC when it was 0x80
(R139, R143, R144). -/
def Obligations.ComIncDecResults : Prop :=
  ∀ (d : Reg) (s : State),
    (∃ t, exec (.com d) s = .next t ∧ (t.reg d).toNat = 255 - (s.reg d).toNat ∧ t.flag flagC = true ∧ t.flag flagV = false ∧
      t.flag flagN = (t.reg d)[7] ∧ (t.flag flagZ = true ↔ s.reg d = 0xFF#8) ∧ t.flag flagS = (t.reg d)[7] ∧
      GoesOn 1 s t ∧ Frame [d] [flagS, flagV, flagN, flagZ, flagC] s t) ∧
    (∃ t, exec (.inc d) s = .next t ∧ (t.reg d).toNat = ((s.reg d).toNat + 1) % 256 ∧
      (t.flag flagV = true ↔ s.reg d = 0x7F#8) ∧ t.flag flagN = (t.reg d)[7] ∧ (t.flag flagZ = true ↔ s.reg d = 0xFF#8) ∧
      t.flag flagS = (t.flag flagN ^^ t.flag flagV) ∧ GoesOn 1 s t ∧ Frame [d] [flagS, flagV, flagN, flagZ] s t) ∧
    (∃ t, exec (.dec d) s = .next t ∧ (t.reg d).toNat = ((s.reg d).toNat + 255) % 256 ∧
      (t.flag flagV = true ↔ s.reg d = 0x80#8) ∧ t.flag flagN = (t.reg d)[7] ∧ (t.flag flagZ = true ↔ s.reg d = 0x01#8) ∧
      t.flag flagS = (t.flag flagN ^^ t.flag flagV) ∧ GoesOn 1 s t ∧ Frame [d] [flagS, flagV, flagN, flagZ] s t)

/-- ADIW and SBIW (R124, R148, R149): 16-bit result and carry, V by signed overflow, N of bit 15, Z of the whole result, H as before. -/
def Obligations.WordAddAndSubtractResults : Prop :=
  ∀ (d : Reg) (k : BitVec 6) (s : State),
    (∃ t, exec (.adiw d k) s = .next t ∧ (t.pair d).toNat = ((s.pair d).toNat + k.toNat) % 65536 ∧
      (t.flag flagC = true ↔ (s.pair d).toNat + k.toNat > 65535) ∧
      (t.flag flagV = true ↔ (s.pair d).toInt + k.toNat > 32767) ∧
      (t.flag flagN = true ↔ 32768 ≤ (t.pair d).toNat) ∧ (t.flag flagZ = true ↔ t.pair d = 0#16) ∧
      t.flag flagS = (t.flag flagN ^^ t.flag flagV) ∧ GoesOn 1 s t ∧
      Frame [d, d + 1] [flagS, flagV, flagN, flagZ, flagC] s t) ∧
    (∃ t, exec (.sbiw d k) s = .next t ∧ ((t.pair d).toNat : Int) = (((s.pair d).toNat : Int) - k.toNat) % 65536 ∧
      (t.flag flagC = true ↔ (s.pair d).toNat < k.toNat) ∧
      (t.flag flagV = true ↔ (s.pair d).toInt - k.toNat < -32768) ∧
      (t.flag flagN = true ↔ 32768 ≤ (t.pair d).toNat) ∧ (t.flag flagZ = true ↔ t.pair d = 0#16) ∧
      t.flag flagS = (t.flag flagN ^^ t.flag flagV) ∧ GoesOn 1 s t ∧
      Frame [d, d + 1] [flagS, flagV, flagN, flagZ, flagC] s t)

/-- R1:R0 holds the product `p` modulo 65536, shifted left once when `frac`; C is bit 15 of the product before the shift, Z that of the
result (R125). -/
def Sys2Proof.Machine.ProductResult (p : Int) (frac : Bool) (s t : State) : Prop :=
  ((t.pair 0).toNat : Int) = (if frac = true then 2 * p else p) % 65536 ∧
  (t.flag flagC = true ↔ 32768 ≤ p % 65536) ∧ (t.flag flagZ = true ↔ t.pair 0 = 0#16) ∧
  GoesOn 1 s t ∧ Frame [0, 1] [flagZ, flagC] s t

/-- MUL, MULS, MULSU (R150 to R152): unsigned, signed, and signed Rd by unsigned Rr; the operands are read before R1:R0 is written. -/
def Obligations.MultiplyResults : Prop :=
  ∀ (d r : Reg) (s : State),
    (∃ t, exec (.mul d r) s = .next t ∧ ProductResult ((s.reg d).toNat * (s.reg r).toNat) false s t) ∧
    (∃ t, exec (.muls d r) s = .next t ∧ ProductResult ((s.reg d).toInt * (s.reg r).toInt) false s t) ∧
    (∃ t, exec (.mulsu d r) s = .next t ∧ ProductResult ((s.reg d).toInt * (s.reg r).toNat) false s t)

/-- FMUL, FMULS, FMULSU (R153 to R155). -/
def Obligations.FractionalMultiplyResults : Prop :=
  ∀ (d r : Reg) (s : State),
    (∃ t, exec (.fmul d r) s = .next t ∧ ProductResult ((s.reg d).toNat * (s.reg r).toNat) true s t) ∧
    (∃ t, exec (.fmuls d r) s = .next t ∧ ProductResult ((s.reg d).toInt * (s.reg r).toInt) true s t) ∧
    (∃ t, exec (.fmulsu d r) s = .next t ∧ ProductResult ((s.reg d).toInt * (s.reg r).toNat) true s t)

/-! ### Bit instructions -/

/-- Flags of a right shift that gave `v` and shifted out bit 0 of `a` (R288). -/
def Sys2Proof.Machine.ShiftResult (d : Reg) (a : Byte) (s t : State) : Prop :=
  t.flag flagC = a[0] ∧ t.flag flagN = (t.reg d)[7] ∧ (t.flag flagZ = true ↔ t.reg d = 0#8) ∧
  t.flag flagV = (t.flag flagN ^^ t.flag flagC) ∧ t.flag flagS = t.flag flagC ∧
  GoesOn 1 s t ∧ Frame [d] [flagS, flagV, flagN, flagZ, flagC] s t

/-- LSR halves unsigned, ASR halves signed toward minus infinity, ROR brings the old C in at bit 7 (R263, R265, R266, R288); SWAP exchanges
the nibbles and writes no flag (R267). -/
def Obligations.ShiftAndSwapResults : Prop :=
  ∀ (d : Reg) (s : State),
    (∃ t, exec (.lsr d) s = .next t ∧ (t.reg d).toNat = (s.reg d).toNat / 2 ∧ ShiftResult d (s.reg d) s t) ∧
    (∃ t, exec (.asr d) s = .next t ∧ (t.reg d).toInt = (s.reg d).toInt / 2 ∧ ShiftResult d (s.reg d) s t) ∧
    (∃ t, exec (.ror d) s = .next t ∧ (t.reg d).toNat = (s.reg d).toNat / 2 + (if s.flag flagC = true then 128 else 0) ∧
      ShiftResult d (s.reg d) s t) ∧
    (∃ t, exec (.swap d) s = .next t ∧ (t.reg d).toNat = (s.reg d).toNat % 16 * 16 + (s.reg d).toNat / 16 ∧
      GoesOn 1 s t ∧ Frame [d] [] s t)

/-- Flag `b` is `x`, everything else as before but the program counter and `IrqShadow`, which is set when the flag is I and is set (R43). -/
def Sys2Proof.Machine.FlagPut (b : Flag) (x : Bool) (s t : State) : Prop :=
  t.flag b = x ∧ SameFlags [b] s t ∧ t.irqShadow = (s.irqShadow || (x && decide (b = flagI))) ∧ GoesOn 1 s t ∧
  SameRegs [] s t ∧ t.sp = s.sp ∧ SameSram s t ∧ SameEnv s t ∧ SameRest s t

/-- BSET, BCLR and their sixteen aliases, with the bit numbers of R31 (R268, R269, R272 to R287). -/
def Obligations.FlagSetAndClearResults : Prop :=
  ∀ (b : Flag) (s : State),
    (∃ t, exec (.bset b) s = .next t ∧ FlagPut b true s t) ∧ (∃ t, exec (.bclr b) s = .next t ∧ FlagPut b false s t) ∧
    (∃ t, exec .sec s = .next t ∧ FlagPut 0 true s t) ∧ (∃ t, exec .clc s = .next t ∧ FlagPut 0 false s t) ∧
    (∃ t, exec .sez s = .next t ∧ FlagPut 1 true s t) ∧ (∃ t, exec .clz s = .next t ∧ FlagPut 1 false s t) ∧
    (∃ t, exec .sen s = .next t ∧ FlagPut 2 true s t) ∧ (∃ t, exec .cln s = .next t ∧ FlagPut 2 false s t) ∧
    (∃ t, exec .sev s = .next t ∧ FlagPut 3 true s t) ∧ (∃ t, exec .clv s = .next t ∧ FlagPut 3 false s t) ∧
    (∃ t, exec .ses s = .next t ∧ FlagPut 4 true s t) ∧ (∃ t, exec .cls s = .next t ∧ FlagPut 4 false s t) ∧
    (∃ t, exec .seh s = .next t ∧ FlagPut 5 true s t) ∧ (∃ t, exec .clh s = .next t ∧ FlagPut 5 false s t) ∧
    (∃ t, exec .setT s = .next t ∧ FlagPut 6 true s t) ∧ (∃ t, exec .clt s = .next t ∧ FlagPut 6 false s t) ∧
    (∃ t, exec .sei s = .next t ∧ FlagPut 7 true s t) ∧ (∃ t, exec .cli s = .next t ∧ FlagPut 7 false s t)

/-- BST copies a register bit to T, BLD copies T to a register bit and leaves its other bits (R270, R271). -/
def Obligations.BitTransferResults : Prop :=
  ∀ (d : Reg) (b : Fin 8) (s : State),
    (∃ t, exec (.bst d b) s = .next t ∧ t.flag flagT = (s.reg d).getLsbD b.val ∧ GoesOn 1 s t ∧ Frame [] [flagT] s t) ∧
    (∃ t, exec (.bld d b) s = .next t ∧ (t.reg d).getLsbD b.val = s.flag flagT ∧
      (∀ c : Fin 8, c ≠ b → (t.reg d).getLsbD c.val = (s.reg d).getLsbD c.val) ∧ GoesOn 1 s t ∧ Frame [d] [] s t)

/-- SBI and CBI (R260, R261) read the I/O location once and then write it once with bit `b` set or cleared; the location is the
environment's, which sees both, and no core state but the program counter changes. How it answers and what it is told is plain data of
the model's own (log entries 7, 9). -/
def Obligations.SbiCbiResults : Prop :=
  ∀ (p : BitVec 5) (b : Fin 8) (s : State),
    (∃ t v u, exec (.sbi p b) s = .next t ∧ IoReadEffect (p.setWidth 6) v s u ∧
      t.events = .ioWrite (p.setWidth 6) (v ||| BitVec.ofNat 8 (2 ^ b.val)) :: .ioRead (p.setWidth 6) v :: s.events ∧
      t.ioAnswers = u.ioAnswers ∧ t.draws = u.draws ∧ t.boundaries = s.boundaries ∧ GoesOn 1 s t ∧ LoadFrame [] s t) ∧
    (∃ t v u, exec (.cbi p b) s = .next t ∧ IoReadEffect (p.setWidth 6) v s u ∧
      t.events = .ioWrite (p.setWidth 6) (v &&& ~~~(BitVec.ofNat 8 (2 ^ b.val))) :: .ioRead (p.setWidth 6) v :: s.events ∧
      t.ioAnswers = u.ioAnswers ∧ t.draws = u.draws ∧ t.boundaries = s.boundaries ∧ GoesOn 1 s t ∧ LoadFrame [] s t)

/-! ### Branches, skips, calls, returns -/

/-- The branch is taken exactly when `c`, to `(pc + 1 + k) mod 2^PC_BITS`; nothing else changes. -/
def Sys2Proof.Machine.BranchResult (c : Bool) (k : BitVec 7) (s t : State) : Prop :=
  t.pc = s.cfg.wrapPc (if c = true then s.relTarget k.toInt else s.pc.toNat + 1) ∧ Frame [] [] s t

/-- BRBS and BRBC (R175, R176) and the eighteen aliases, each with its flag (R177 to R194). -/
def Obligations.ConditionalBranchResults : Prop :=
  ∀ (b : Flag) (k : BitVec 7) (s : State),
    (∃ t, exec (.brbs b k) s = .next t ∧ BranchResult (s.flag b) k s t) ∧
    (∃ t, exec (.brbc b k) s = .next t ∧ BranchResult (!s.flag b) k s t) ∧
    (∃ t, exec (.brcs k) s = .next t ∧ BranchResult (s.flag 0) k s t) ∧
    (∃ t, exec (.brlo k) s = .next t ∧ BranchResult (s.flag 0) k s t) ∧
    (∃ t, exec (.breq k) s = .next t ∧ BranchResult (s.flag 1) k s t) ∧
    (∃ t, exec (.brmi k) s = .next t ∧ BranchResult (s.flag 2) k s t) ∧
    (∃ t, exec (.brvs k) s = .next t ∧ BranchResult (s.flag 3) k s t) ∧
    (∃ t, exec (.brlt k) s = .next t ∧ BranchResult (s.flag 4) k s t) ∧
    (∃ t, exec (.brhs k) s = .next t ∧ BranchResult (s.flag 5) k s t) ∧
    (∃ t, exec (.brts k) s = .next t ∧ BranchResult (s.flag 6) k s t) ∧
    (∃ t, exec (.brie k) s = .next t ∧ BranchResult (s.flag 7) k s t) ∧
    (∃ t, exec (.brcc k) s = .next t ∧ BranchResult (!s.flag 0) k s t) ∧
    (∃ t, exec (.brsh k) s = .next t ∧ BranchResult (!s.flag 0) k s t) ∧
    (∃ t, exec (.brne k) s = .next t ∧ BranchResult (!s.flag 1) k s t) ∧
    (∃ t, exec (.brpl k) s = .next t ∧ BranchResult (!s.flag 2) k s t) ∧
    (∃ t, exec (.brvc k) s = .next t ∧ BranchResult (!s.flag 3) k s t) ∧
    (∃ t, exec (.brge k) s = .next t ∧ BranchResult (!s.flag 4) k s t) ∧
    (∃ t, exec (.brhc k) s = .next t ∧ BranchResult (!s.flag 5) k s t) ∧
    (∃ t, exec (.brtc k) s = .next t ∧ BranchResult (!s.flag 6) k s t) ∧
    (∃ t, exec (.brid k) s = .next t ∧ BranchResult (!s.flag 7) k s t)

/-- RJMP, IJMP, JMP, EIJMP (R163, R195, R197, R199): the target modulo 2^`PC_BITS`, nothing else. -/
def Obligations.JumpResults : Prop :=
  ∀ (k : BitVec 12) (a : BitVec 22) (s : State),
    (∃ t, exec (.rjmp k) s = .next t ∧ t.pc = s.cfg.wrapPc (s.relTarget k.toInt) ∧ Frame [] [] s t) ∧
    (∃ t, exec .ijmp s = .next t ∧ t.pc = s.cfg.wrapPc (256 * (s.reg 31).toNat + (s.reg 30).toNat) ∧ Frame [] [] s t) ∧
    (∃ t, exec (.jmp a) s = .next t ∧ t.pc = s.cfg.wrapPc a.toNat ∧ Frame [] [] s t) ∧
    (∃ t, exec .eijmp s = .next t ∧
      t.pc = s.cfg.wrapPc (s.eind.toNat % 64 * 65536 + 256 * (s.reg 31).toNat + (s.reg 30).toNat) ∧ Frame [] [] s t)

/-- How far a skip goes from `a` when the word there is readable and, if it is a two-word opcode, implemented (R93). -/
def Sys2Proof.Machine.SkipsWords (n : Nat) (s : State) (a : Nat) : Prop :=
  ∃ w, s.progWord? (a % 2 ^ s.cfg.pcBits) = some w ∧
    ((n = 1 ∧ isLongWord w = false) ∨
      (n = 2 ∧ isLongWord w = true ∧ ∃ i, decodeWords w 0#16 = some i ∧ i.implementedOn s.cfg.core = true))

/-- CPSE, SBRC, SBRS (R161, R167, R171, R172): with the condition false the next instruction follows and the word after is not
looked at; with it true the next instruction, of one word or two, is passed over whole. Nothing but the program counter changes. -/
def Obligations.RegisterSkipResults : Prop :=
  ∀ (d r : Reg) (b : Fin 8) (s : State),
    (s.reg d ≠ s.reg r → ∃ t, exec (.cpse d r) s = .next t ∧ GoesOn 1 s t ∧ Frame [] [] s t) ∧
    ((s.reg d).getLsbD b.val = true → ∃ t, exec (.sbrc d b) s = .next t ∧ GoesOn 1 s t ∧ Frame [] [] s t) ∧
    ((s.reg d).getLsbD b.val = false → ∃ t, exec (.sbrs d b) s = .next t ∧ GoesOn 1 s t ∧ Frame [] [] s t) ∧
    ∀ n, SkipsWords n s (s.pc.toNat + 1) →
      (s.reg d = s.reg r → ∃ t, exec (.cpse d r) s = .next t ∧ GoesOn (1 + n) s t ∧ Frame [] [] s t) ∧
      ((s.reg d).getLsbD b.val = false → ∃ t, exec (.sbrc d b) s = .next t ∧ GoesOn (1 + n) s t ∧ Frame [] [] s t) ∧
      ((s.reg d).getLsbD b.val = true → ∃ t, exec (.sbrs d b) s = .next t ∧ GoesOn (1 + n) s t ∧ Frame [] [] s t)

/-- SBIC and SBIS (R161, R173, R174) read the location once and test bit `b` of what it gives: the rest is as for the other skips, and with
the condition false the next word is not looked at. What a location of the environment answers is plain data of the model's own (log
entries 7, 9). -/
def Obligations.IoSkipResults : Prop :=
  ∀ (p : BitVec 5) (b : Fin 8) (s : State) (v : Byte), v = (s.ioRead (p.setWidth 6)).1 →
    (v.getLsbD b.val = true → ∃ t, exec (.sbic p b) s = .next t ∧ IoReadEffect (p.setWidth 6) v s t ∧ GoesOn 1 s t ∧
      LoadFrame [] s t) ∧
    (v.getLsbD b.val = false → ∃ t, exec (.sbis p b) s = .next t ∧ IoReadEffect (p.setWidth 6) v s t ∧ GoesOn 1 s t ∧
      LoadFrame [] s t) ∧
    ∀ n, SkipsWords n s (s.pc.toNat + 1) →
      (v.getLsbD b.val = false → ∃ t, exec (.sbic p b) s = .next t ∧ IoReadEffect (p.setWidth 6) v s t ∧
        GoesOn (1 + n) s t ∧ LoadFrame [] s t) ∧
      (v.getLsbD b.val = true → ∃ t, exec (.sbis p b) s = .next t ∧ IoReadEffect (p.setWidth 6) v s t ∧
        GoesOn (1 + n) s t ∧ LoadFrame [] s t)

/-- Every skip whose condition holds, CPSE, SBRC, SBRS, SBIC, SBIS, stops when the word to be skipped lies outside program memory, or is a
two-word opcode that the core does not implement (R93, R161, R351; log entry 23). The condition of SBIC and SBIS is a bit of what the
location gives. -/
def Obligations.SkipStops : Prop :=
  ∀ (d r : Reg) (p : BitVec 5) (b : Fin 8) (s : State),
    ∀ f ∈ [(Instr.cpse d r, decide (s.reg d = s.reg r)), (.sbrc r b, !(s.reg r).getLsbD b.val), (.sbrs r b, (s.reg r).getLsbD b.val),
        (.sbic p b, !(s.ioRead (p.setWidth 6)).1.getLsbD b.val), (.sbis p b, (s.ioRead (p.setWidth 6)).1.getLsbD b.val)],
      f.2 = true →
        (s.cfg.flashWords ≤ (s.pc.toNat + 1) % 2 ^ s.cfg.pcBits →
          exec f.1 s = .fault (.fetchOutOfRange ((s.pc.toNat + 1) % 2 ^ s.cfg.pcBits))) ∧
        (∀ w i, s.progWord? ((s.pc.toNat + 1) % 2 ^ s.cfg.pcBits) = some w → isLongWord w = true →
          decodeWords w 0#16 = some i → i.implementedOn s.cfg.core = false →
          exec f.1 s = .refused .skipOverUnimplemented)

/-- A call that pushed `ret` on the data stack and went to `target` (R162). -/
def Sys2Proof.Machine.CallResult (ret : PcWord) (target : Nat) (s t : State) : Prop :=
  t.pc = s.cfg.wrapPc target ∧ Pushed ret s t ∧ t.runState = s.runState ∧
  ((∀ j, j < s.cfg.retBytes → dataRegion s.cfg (s.sp - BitVec.ofNat 16 j) ≠ .io) →
    t.sreg = s.sreg ∧ t.irqShadow = s.irqShadow ∧ t.events = s.events)

/-- RCALL, ICALL, CALL, EICALL on a core with SP (R162, R164, R196, R198, R200), wherever the stack bytes are implemented: the address after
the call is pushed (after both words of CALL), Z and EIND are read before the push. -/
def Obligations.CallsOnTheDataStack : Prop :=
  ∀ (k : BitVec 12) (a : BitVec 22) (s : State), CanPush s.cfg.retBytes s →
    (∃ t, exec (.rcall k) s = .next t ∧ CallResult (s.cfg.wrapPc (s.pc.toNat + 1)) (s.relTarget k.toInt) s t) ∧
    (∃ t, exec .icall s = .next t ∧ CallResult (s.cfg.wrapPc (s.pc.toNat + 1)) (s.pair 30).toNat s t) ∧
    (∃ t, exec (.call a) s = .next t ∧ CallResult (s.cfg.wrapPc (s.pc.toNat + 2)) a.toNat s t) ∧
    (∃ t, exec .eicall s = .next t ∧
      CallResult (s.cfg.wrapPc (s.pc.toNat + 1)) (s.eind.toNat % 64 * 65536 + (s.pair 30).toNat) s t)

/-- RET and RETI on a core with SP (R165, R166): the address is popped; RETI sets I and the one-instruction shadow besides, no other
flag changes. -/
def Obligations.ReturnsFromTheDataStack : Prop :=
  ∀ s : State, CanPop s.cfg.retBytes s →
    (∃ t, exec .ret s = .next t ∧ Popped s t ∧ t.sreg = s.sreg ∧ t.irqShadow = s.irqShadow) ∧
    (∃ t, exec .reti s = .next t ∧ Popped s t ∧ t.flag flagI = true ∧ SameFlags [flagI] s t ∧ t.irqShadow = true)

/-- RCALL, RET and RETI on a core without SP (R45, R73, R74): last in, first out, at most `HW_STACK_DEPTH` deep; overflow and underflow
stop. -/
def Obligations.HardwareStackCallsAndReturns : Prop :=
  ∀ (k : BitVec 12) (s : State), s.cfg.hasSp = false →
    (s.hwStack.length < s.cfg.hwStackDepth → ∃ t, exec (.rcall k) s = .next t ∧
      t.hwStack = s.cfg.wrapPc (s.pc.toNat + 1) :: s.hwStack ∧ t.pc = s.cfg.wrapPc (s.relTarget k.toInt) ∧
      SameRegs [] s t ∧ t.sreg = s.sreg ∧ t.sp = s.sp ∧ t.irqShadow = s.irqShadow ∧ SameSram s t ∧ SameEnv s t ∧
      t.cfg = s.cfg ∧ t.runState = s.runState ∧ t.rampz = s.rampz ∧ t.eind = s.eind ∧ ∀ b, t.progByte b = s.progByte b) ∧
    (s.cfg.hwStackDepth ≤ s.hwStack.length → exec (.rcall k) s = .fault .hwStackOverflow) ∧
    (∀ a rest, s.hwStack = a :: rest →
      (∃ t, exec .ret s = .next t ∧ t.pc = a ∧ t.hwStack = rest ∧ SameRegs [] s t ∧ t.sreg = s.sreg ∧ t.sp = s.sp ∧
        t.irqShadow = s.irqShadow ∧ SameSram s t ∧ SameEnv s t ∧ t.cfg = s.cfg ∧ t.runState = s.runState ∧
        t.rampz = s.rampz ∧ t.eind = s.eind ∧ ∀ b, t.progByte b = s.progByte b) ∧
      (∃ t, exec .reti s = .next t ∧ t.pc = a ∧ t.hwStack = rest ∧ SameRegs [] s t ∧ t.flag flagI = true ∧
        SameFlags [flagI] s t ∧ t.sp = s.sp ∧ t.irqShadow = true ∧ SameSram s t ∧ SameEnv s t ∧ t.cfg = s.cfg ∧
        t.runState = s.runState ∧ t.rampz = s.rampz ∧ t.eind = s.eind ∧ ∀ b, t.progByte b = s.progByte b)) ∧
    (s.hwStack = [] → exec .ret s = .fault .hwStackUnderflow ∧ exec .reti s = .fault .hwStackUnderflow)

/-- A call followed by RET is back at the instruction after the call, with SP, the hardware stack, the registers and SREG as before and every
SRAM byte but those of the return address, on either kind of stack; the stack bytes lie in SRAM where there is SP (R73, R74, R162). -/
def Obligations.CallThenReturn : Prop :=
  ∀ (k : BitVec 12) (a : BitVec 22) (s : State), s.cfg.ok = true → s.pc.toNat < 2 ^ s.cfg.pcBits →
    (s.cfg.hasSp = true → ∀ j, j < s.cfg.retBytes → dataRegion s.cfg (s.sp - BitVec.ofNat 16 j) = .sram) →
    (s.cfg.hasSp = false → s.hwStack.length < s.cfg.hwStackDepth) →
    ∀ f ∈ [(Instr.rcall k, 1), (.call a, 2)],
      ∃ t u, exec f.1 s = .next t ∧ exec .ret t = .next u ∧ u.pc = s.cfg.wrapPc (s.pc.toNat + f.2) ∧ u.sp = s.sp ∧
        u.hwStack = s.hwStack ∧ SameRegs [] s u ∧ u.sreg = s.sreg ∧
        ∀ b : Word, (s.cfg.hasSp = true → ∀ j, j < s.cfg.retBytes → b ≠ s.sp - BitVec.ofNat 16 j) →
          u.sramByte? b = s.sramByte? b

/-! ### Memory, loads, stores, I/O -/

/-- `MemRead(addr, 1)` by region of the address (R63, R85, R345); an SRAM byte that nothing has written is a
free value, the model's choice between the two that R46 allows (log entry 6). -/
def Obligations.MemReadByRegion : Prop :=
  ∀ (s : State) (a : Word),
    (a.toNat ≤ 0x1F → s.memRead a = .next (s.reg (Fin.ofNat 32 a.toNat), s)) ∧
    (s.cfg.hasSp = false → 0x1F < a.toNat → s.memRead a = .fault (.unimplementedData a.toNat)) ∧
    (s.cfg.hasSp = true → 0x1F < a.toNat → a.toNat ≤ 0x5F →
      s.memRead a = .next (s.ioRead (BitVec.ofNat 6 (a.toNat - 0x20)))) ∧
    (s.cfg.hasSp = true → 0x60 ≤ a.toNat → a.toNat ≤ s.cfg.sramEnd →
      (∀ v, s.sramByte? a = some v → s.memRead a = .next (v, s)) ∧
      (s.sramByte? a = none → s.memRead a = .next (Config.freeByte s.draws, { s with draws := s.draws + 1 }))) ∧
    (s.cfg.hasSp = true → 0x60 ≤ a.toNat → s.cfg.sramEnd < a.toNat → s.memRead a = .fault (.unimplementedData a.toNat))

/-- `MemWrite(addr, 1, v)` by region of the address (R64, R85); the SRAM byte written reads back and no other byte changes. -/
def Obligations.MemWriteByRegion : Prop :=
  ∀ (s : State) (a : Word) (v : Byte),
    (a.toNat ≤ 0x1F → s.memWrite a v = .next (s.setReg (Fin.ofNat 32 a.toNat) v)) ∧
    (s.cfg.hasSp = false → 0x1F < a.toNat → s.memWrite a v = .fault (.unimplementedData a.toNat)) ∧
    (s.cfg.hasSp = true → 0x1F < a.toNat → a.toNat ≤ 0x5F →
      s.memWrite a v = .next (s.ioWrite (BitVec.ofNat 6 (a.toNat - 0x20)) v)) ∧
    (s.cfg.hasSp = true → 0x60 ≤ a.toNat → a.toNat ≤ s.cfg.sramEnd → ∃ t, s.memWrite a v = .next t ∧
      t.sramByte? a = some v ∧ (∀ b, b ≠ a → t.sramByte? b = s.sramByte? b) ∧ { t with sram := s.sram } = s) ∧
    (s.cfg.hasSp = true → 0x60 ≤ a.toNat → s.cfg.sramEnd < a.toNat → s.memWrite a v = .fault (.unimplementedData a.toNat))

/-- LD Rd,X and Y and Z, LDD, LDS (R214, R219, R220, R223, R226, R229): the byte of the address, the pointer as before. -/
def Obligations.PlainLoadResults : Prop :=
  ∀ (d : Reg) (q : BitVec 6) (k : Word) (s : State),
    ∀ f ∈ [(Instr.ldX d, s.pair 26, 1), (.ldY d, s.pair 28, 1), (.ldZ d, s.pair 30, 1),
        (.lddY d q, s.pair 28 + q.setWidth 16, 1), (.lddZ d q, s.pair 30 + q.setWidth 16, 1), (.lds d k, k, 2)],
      dataRegion s.cfg f.2.1 ≠ .unimplemented →
        ∃ t, exec f.1 s = .next t ∧ MemReadEffect f.2.1 (t.reg d) s t ∧ GoesOn f.2.2 s t ∧ LoadFrame [d] s t

/-- LD with post-increment or pre-decrement (R221, R222, R224, R225, R227, R228): the byte of the old pointer, or of the decremented one, and the
pointer one more or one less, both bytes in the same step. -/
def Obligations.StepLoadResults : Prop :=
  ∀ (d : Reg) (s : State),
    ∀ f ∈ [(Instr.ldXInc d, Ptr.x, s.pair 26, s.pair 26 + 1#16), (.ldXDec d, .x, s.pair 26 - 1#16, s.pair 26 - 1#16),
        (.ldYInc d, .y, s.pair 28, s.pair 28 + 1#16), (.ldYDec d, .y, s.pair 28 - 1#16, s.pair 28 - 1#16),
        (.ldZInc d, .z, s.pair 30, s.pair 30 + 1#16), (.ldZDec d, .z, s.pair 30 - 1#16, s.pair 30 - 1#16)],
      f.2.1.has d = false → f.2.1.owns f.2.2.1 = false → dataRegion s.cfg f.2.2.1 ≠ .unimplemented →
        ∃ t, exec f.1 s = .next t ∧ MemReadEffect f.2.2.1 (t.reg d) s t ∧ t.ptr f.2.1 = f.2.2.2 ∧ GoesOn 1 s t ∧
          LoadFrame [d, f.2.1.lo, f.2.1.lo + 1] s t

/-- ST X and Y and Z, STD, STS (R215, R230, R231, R234, R237, R240): the register's byte at the address, nothing else. -/
def Obligations.PlainStoreResults : Prop :=
  ∀ (r : Reg) (q : BitVec 6) (k : Word) (s : State),
    ∀ f ∈ [(Instr.stX r, s.pair 26, 1), (.stY r, s.pair 28, 1), (.stZ r, s.pair 30, 1),
        (.stdY q r, s.pair 28 + q.setWidth 16, 1), (.stdZ q r, s.pair 30 + q.setWidth 16, 1), (.sts k r, k, 2)],
      dataRegion s.cfg f.2.1 ≠ .unimplemented →
        ∃ t, exec f.1 s = .next t ∧ StoreEffect [] f.2.1 (s.reg r) s t ∧ t.sp = spAfterStore f.2.1 (s.reg r) s ∧
          GoesOn f.2.2 s t

/-- ST with post-increment or pre-decrement (R232, R233, R235, R236, R238, R239). -/
def Obligations.StepStoreResults : Prop :=
  ∀ (r : Reg) (s : State),
    ∀ f ∈ [(Instr.stXInc r, Ptr.x, s.pair 26, s.pair 26 + 1#16), (.stXDec r, .x, s.pair 26 - 1#16, s.pair 26 - 1#16),
        (.stYInc r, .y, s.pair 28, s.pair 28 + 1#16), (.stYDec r, .y, s.pair 28 - 1#16, s.pair 28 - 1#16),
        (.stZInc r, .z, s.pair 30, s.pair 30 + 1#16), (.stZDec r, .z, s.pair 30 - 1#16, s.pair 30 - 1#16)],
      f.2.1.has r = false → f.2.1.owns f.2.2.1 = false → dataRegion s.cfg f.2.2.1 ≠ .unimplemented →
        ∃ t, exec f.1 s = .next t ∧ StoreEffect [f.2.1.lo, f.2.1.lo + 1] f.2.2.1 (s.reg r) s t ∧
          t.sp = spAfterStore f.2.2.1 (s.reg r) s ∧ t.ptr f.2.1 = f.2.2.2 ∧ GoesOn 1 s t

/-- A post-increment or pre-decrement form whose data register is half of its pointer, or whose address is, is refused (R211; log entry 20). -/
def Obligations.PointerConflictsRefused : Prop :=
  ∀ (d : Reg) (s : State),
    (∀ f ∈ [(Instr.ldXInc d, Ptr.x), (.ldXDec d, .x), (.stXInc d, .x), (.stXDec d, .x), (.ldYInc d, .y), (.ldYDec d, .y),
        (.stYInc d, .y), (.stYDec d, .y), (.ldZInc d, .z), (.ldZDec d, .z), (.stZInc d, .z), (.stZDec d, .z),
        (.lpmZInc d, .z), (.elpmZInc d, .z)],
      (d = f.2.lo ∨ d = f.2.lo + 1) → exec f.1 s = .refused .pointerAsData) ∧
    (∀ f ∈ [(Instr.ldXInc d, Ptr.x, s.pair 26), (.ldXDec d, .x, s.pair 26 - 1#16), (.stXInc d, .x, s.pair 26),
        (.stXDec d, .x, s.pair 26 - 1#16), (.ldYInc d, .y, s.pair 28), (.ldYDec d, .y, s.pair 28 - 1#16),
        (.stYInc d, .y, s.pair 28), (.stYDec d, .y, s.pair 28 - 1#16), (.ldZInc d, .z, s.pair 30),
        (.ldZDec d, .z, s.pair 30 - 1#16), (.stZInc d, .z, s.pair 30), (.stZDec d, .z, s.pair 30 - 1#16)],
      d ≠ f.2.1.lo → d ≠ f.2.1.lo + 1 → (f.2.2.toNat = f.2.1.lo.val ∨ f.2.2.toNat = f.2.1.lo.val + 1) →
      exec f.1 s = .refused .pointerSelfAccess)

/-- Every access of the data space at an address that is not implemented stops and names the address: the loads and stores in all their
forms (those with post-increment and pre-decrement after the check of R211), PUSH and POP, and the first such byte that a call, an
interrupt entry, RET or RETI pushes or pops (R63, R64, R73, R74, R85, R210, R314). -/
def Obligations.UnimplementedDataStops : Prop :=
  ∀ (d : Reg) (q : BitVec 6) (k : Word) (o : BitVec 12) (a : BitVec 22) (s : State),
    (∀ f ∈ [(Instr.ldX d, s.pair 26), (.ldY d, s.pair 28), (.ldZ d, s.pair 30), (.lddY d q, s.pair 28 + q.setWidth 16),
        (.lddZ d q, s.pair 30 + q.setWidth 16), (.lds d k, k), (.stX d, s.pair 26), (.stY d, s.pair 28), (.stZ d, s.pair 30),
        (.stdY q d, s.pair 28 + q.setWidth 16), (.stdZ q d, s.pair 30 + q.setWidth 16), (.sts k d, k), (.push d, s.sp),
        (.pop d, s.sp + 1#16)],
      NoDataAt s.cfg f.2 → exec f.1 s = .fault (.unimplementedData f.2.toNat)) ∧
    (∀ f ∈ [(Instr.ldXInc d, Ptr.x, s.pair 26), (.ldXDec d, .x, s.pair 26 - 1#16), (.stXInc d, .x, s.pair 26),
        (.stXDec d, .x, s.pair 26 - 1#16), (.ldYInc d, .y, s.pair 28), (.ldYDec d, .y, s.pair 28 - 1#16),
        (.stYInc d, .y, s.pair 28), (.stYDec d, .y, s.pair 28 - 1#16), (.ldZInc d, .z, s.pair 30),
        (.ldZDec d, .z, s.pair 30 - 1#16), (.stZInc d, .z, s.pair 30), (.stZDec d, .z, s.pair 30 - 1#16)],
      f.2.1.has d = false → NoDataAt s.cfg f.2.2 → exec f.1 s = .fault (.unimplementedData f.2.2.toNat)) ∧
    (s.cfg.hasSp = true → ∀ j, j < s.cfg.retBytes → (∀ m, m < j → ¬ NoDataAt s.cfg (s.sp - BitVec.ofNat 16 m)) →
      NoDataAt s.cfg (s.sp - BitVec.ofNat 16 j) →
      (∀ i ∈ [Instr.rcall o, .icall, .call a, .eicall],
        exec i s = .fault (.unimplementedData (s.sp - BitVec.ofNat 16 j).toNat)) ∧
      ∀ n, s.nextAction = .irq n → step s = .fault (.unimplementedData (s.sp - BitVec.ofNat 16 j).toNat)) ∧
    (s.cfg.hasSp = true → ∀ j, 1 ≤ j → j ≤ s.cfg.retBytes →
      (∀ m, 1 ≤ m → m < j → ¬ NoDataAt s.cfg (s.sp + BitVec.ofNat 16 m)) → NoDataAt s.cfg (s.sp + BitVec.ofNat 16 j) →
      ∀ i ∈ [Instr.ret, .reti], exec i s = .fault (.unimplementedData (s.sp + BitVec.ofNat 16 j).toNat))

/-- PUSH stores at SP and decrements SP; POP increments SP and loads from it (R241, R242), wherever the byte is implemented. Where POP's
address is one of SP's own bytes, it reads the new SP (the model's choice, log entry 16). -/
def Obligations.PushAndPopResults : Prop :=
  ∀ (d : Reg) (s : State),
    (dataRegion s.cfg s.sp ≠ .unimplemented →
      ∃ t, exec (.push d) s = .next t ∧ StoreEffect [] s.sp (s.reg d) s t ∧ t.sp = s.sp - 1#16 ∧ GoesOn 1 s t) ∧
    (dataRegion s.cfg (s.sp + 1#16) ≠ .unimplemented → (s.sp + 1#16) ≠ 0x5D#16 → (s.sp + 1#16) ≠ 0x5E#16 →
      ∃ t, exec (.pop d) s = .next t ∧ MemReadEffect (s.sp + 1#16) (t.reg d) s t ∧ t.sp = s.sp + 1#16 ∧ GoesOn 1 s t ∧
        SameRegs [d] s t ∧ t.sreg = s.sreg ∧ t.irqShadow = s.irqShadow ∧ SameSram s t ∧ SameRest s t) ∧
    (s.cfg.hasSp = true → (s.sp + 1#16) = 0x5D#16 ∨ (s.sp + 1#16) = 0x5E#16 →
      ∃ t, exec (.pop d) s = .next t ∧ t.reg d = (if s.sp + 1#16 = 0x5D#16 then 0x5D#8 else 0x00#8) ∧ t.sp = s.sp + 1#16 ∧
        GoesOn 1 s t ∧ SameEnv s t ∧ SameRegs [d] s t ∧ t.sreg = s.sreg ∧ t.irqShadow = s.irqShadow ∧ SameSram s t ∧ SameRest s t)

/-- IN and OUT (R216, R217) at every I/O location; what a location of the environment answers is plain data of the model's own (log
entries 7, 9). -/
def Obligations.InAndOutResults : Prop :=
  ∀ (d : Reg) (p : BitVec 6) (s : State),
    (∃ t, exec (.inIo d p) s = .next t ∧ IoReadEffect p (t.reg d) s t ∧ GoesOn 1 s t ∧ LoadFrame [d] s t) ∧
    (∃ t, exec (.outIo p d) s = .next t ∧ IoWriteEffect p (s.reg d) s t ∧ t.sp = spAfterIoWrite p (s.reg d) s ∧
      SameRegs [] s t ∧ SameSram s t ∧ GoesOn 1 s t)

/-- MOV, LDI, SER, MOVW (R147, R212, R213, R244). -/
def Obligations.MoveResults : Prop :=
  ∀ (d r : Reg) (k : Byte) (s : State),
    (∃ t, exec (.mov d r) s = .next t ∧ t.reg d = s.reg r ∧ GoesOn 1 s t ∧ Frame [d] [] s t) ∧
    (∃ t, exec (.ldi d k) s = .next t ∧ t.reg d = k ∧ GoesOn 1 s t ∧ Frame [d] [] s t) ∧
    (∃ t, exec (.ser d) s = .next t ∧ t.reg d = 0xFF#8 ∧ GoesOn 1 s t ∧ Frame [d] [] s t) ∧
    (∃ t, exec (.movw d r) s = .next t ∧ t.pair d = s.pair r ∧ GoesOn 1 s t ∧ Frame [d, d + 1] [] s t)

/-- The six program-memory loads (R218, R243, R245, R246, R248, R249, R250): the byte of Z or RAMPZ:Z, low half of the word at an even
address, high half at an odd one; the post-increment of LPM stays within Z, that of ELPM carries into RAMPZ; outside program
memory each of the six stops (the post-increment forms after the check of R211). -/
def Obligations.ProgramLoadResults : Prop :=
  ∀ (d : Reg) (s : State) (z e : Nat), z = (s.pair 30).toNat → e = s.rampz.toNat * 65536 + (s.pair 30).toNat →
    (z / 2 < s.cfg.flashWords →
      (∃ t, exec .lpm s = .next t ∧ t.reg 0 = s.progByte z ∧ GoesOn 1 s t ∧ Frame [0] [] s t) ∧
      (∃ t, exec (.lpmZ d) s = .next t ∧ t.reg d = s.progByte z ∧ GoesOn 1 s t ∧ Frame [d] [] s t) ∧
      (d ≠ 30 → d ≠ 31 → ∃ t, exec (.lpmZInc d) s = .next t ∧ t.reg d = s.progByte z ∧
        (t.pair 30).toNat = (z + 1) % 65536 ∧ GoesOn 1 s t ∧ Frame [d, 30, 31] [] s t)) ∧
    (e / 2 < s.cfg.flashWords →
      (∃ t, exec .elpm s = .next t ∧ t.reg 0 = s.progByte e ∧ GoesOn 1 s t ∧ Frame [0] [] s t) ∧
      (∃ t, exec (.elpmZ d) s = .next t ∧ t.reg d = s.progByte e ∧ GoesOn 1 s t ∧ Frame [d] [] s t) ∧
      (d ≠ 30 → d ≠ 31 → ∃ t, exec (.elpmZInc d) s = .next t ∧ t.reg d = s.progByte e ∧
        t.rampz.toNat * 65536 + (t.pair 30).toNat = (e + 1) % 2 ^ 24 ∧ GoesOn 1 s t ∧
        SameRegs [d, 30, 31] s t ∧ t.sreg = s.sreg ∧ t.sp = s.sp ∧ t.eind = s.eind ∧ SameSram s t ∧ SameEnv s t ∧
        t.hwStack = s.hwStack ∧ t.irqShadow = s.irqShadow ∧ t.runState = s.runState ∧ t.cfg = s.cfg ∧
        ∀ b, t.progByte b = s.progByte b)) ∧
    (s.cfg.flashWords ≤ z / 2 → exec .lpm s = .fault (.unimplementedProgram (z / 2)) ∧
      exec (.lpmZ d) s = .fault (.unimplementedProgram (z / 2)) ∧
      (d ≠ 30 → d ≠ 31 → exec (.lpmZInc d) s = .fault (.unimplementedProgram (z / 2)))) ∧
    (s.cfg.flashWords ≤ e / 2 → exec .elpm s = .fault (.unimplementedProgram (e / 2)) ∧
      exec (.elpmZ d) s = .fault (.unimplementedProgram (e / 2)) ∧
      (d ≠ 30 → d ≠ 31 → exec (.elpmZInc d) s = .fault (.unimplementedProgram (e / 2))))

/-- SPM (R247): under `literal` the word at Z[15:1] becomes R1:R0, at once for every later fetch and LPM, no other program byte changes;
under `refuse` it is refused; outside program memory it stops. `SPM_MODEL` is a parameter of R9; that `literal` shows at once is what R247
offers (log entry 14). -/
def Obligations.SpmResults : Prop :=
  ∀ (s : State) (a : Nat), a = (s.pair 30).toNat / 2 →
    (s.cfg.spmModel = .literal → a < s.cfg.flashWords →
      ∃ t, exec .spm s = .next t ∧ t.progWord? a = some (s.pair 0) ∧ t.progByte (2 * a) = s.reg 0 ∧
        t.progByte (2 * a + 1) = s.reg 1 ∧ (∀ b, b ≠ 2 * a → b ≠ 2 * a + 1 → t.progByte b = s.progByte b) ∧
        GoesOn 1 s t ∧ SameRegs [] s t ∧ t.sreg = s.sreg ∧ t.sp = s.sp ∧ t.rampz = s.rampz ∧ t.eind = s.eind ∧
        SameSram s t ∧ SameEnv s t ∧ t.hwStack = s.hwStack ∧ t.irqShadow = s.irqShadow ∧ t.runState = s.runState ∧
        t.cfg = s.cfg) ∧
    (s.cfg.spmModel = .literal → s.cfg.flashWords ≤ a → exec .spm s = .fault (.unimplementedProgram a)) ∧
    (s.cfg.spmModel = .refuse → exec .spm s = .refused .refuseSpm)

/-! ### MCU control -/

/-- NOP, WDR, SLEEP, BREAK (R300 to R303) under every value of their parameters; the state after reset has the values of log entries
12 and 13, which are the model's choice. -/
def Obligations.McuControlResults : Prop :=
  ∀ s : State,
    (∃ t, exec .nop s = .next t ∧ GoesOn 1 s t ∧ Frame [] [] s t) ∧
    (∃ t, exec .wdr s = .next t ∧ GoesOn 1 s t ∧ t.events = .wdr :: s.events ∧ { t with pc := s.pc, events := s.events } = s) ∧
    (s.cfg.sleepModel = .wait → ∃ t, exec .sleep s = .next t ∧ GoesOn 1 s t ∧ t.runState = .sleeping ∧
      { t with pc := s.pc, runState := s.runState } = s) ∧
    (s.cfg.sleepModel = .nop → ∃ t, exec .sleep s = .next t ∧ GoesOn 1 s t ∧ Frame [] [] s t) ∧
    (s.cfg.sleepModel = .refuse → exec .sleep s = .refused .refuseSleep) ∧
    (s.cfg.breakModel = .stop → ∃ t, exec .brk s = .next t ∧ t.pc = s.pc ∧ t.runState = .stopped ∧
      { t with runState := s.runState } = s) ∧
    (s.cfg.breakModel = .nop → ∃ t, exec .brk s = .next t ∧ GoesOn 1 s t ∧ Frame [] [] s t) ∧
    (s.cfg.breakModel = .refuse → exec .brk s = .refused .refuseBreak)

/-! ### The step: fetching, interrupts, reset -/

/-- When the words at the program counter decode to an instruction that the core implements and nothing else happens at the boundary, the
step is `exec` of it, from the state past the boundary with `IrqShadow` cleared and all else as before (R30, R43, R94, R313). That the
shadow is cleared before the instruction and set again by those of R43, and the list of boundaries, are the model's form (log entries
8, 17, 21). -/
def Obligations.StepRunsDecodedInstruction : Prop :=
  ∀ (s : State) (w w1 : Word) (i : Instr), s.nextAction = .run →
    s.progWord? s.pc.toNat = some w →
    (isLongWord w = true → s.progWord? ((s.pc.toNat + 1) % 2 ^ s.cfg.pcBits) = some w1) →
    decodeWords w w1 = some i → i.implementedOn s.cfg.core = true →
    step s = exec i s.beginInstr ∧
      s.beginInstr = { s with boundaries := s.boundaries.tail, irqShadow := false }

/-- What a step that would run an instruction stops on, in the order of R321: the first word outside program memory, the second, a reserved
word, a word that the core does not implement (R30, R107, R108; log entry 19). -/
def Obligations.FetchStops : Prop :=
  ∀ s : State, s.nextAction = .run →
    (s.cfg.flashWords ≤ s.pc.toNat → step s = .fault (.fetchOutOfRange s.pc.toNat)) ∧
    (∀ w, s.progWord? s.pc.toNat = some w →
      (isLongWord w = true → s.cfg.flashWords ≤ (s.pc.toNat + 1) % 2 ^ s.cfg.pcBits →
        step s = .fault (.fetchOutOfRange ((s.pc.toNat + 1) % 2 ^ s.cfg.pcBits))) ∧
      (ReservedWord w → step s = .refused (.illegalInstruction w)) ∧
      (∀ w1 i, (isLongWord w = true → s.progWord? ((s.pc.toNat + 1) % 2 ^ s.cfg.pcBits) = some w1) →
        decodeWords w w1 = some i → i.implementedOn s.cfg.core = false → step s = .refused (.illegalInstruction w)))

/-- An interrupt is taken exactly when no reset is asserted, I = 1, no shadow holds, the core is not stopped and some request with an existing
vector is pending, and then it is the lowest-numbered (R312, R313, R315). That a request outside 1 to
`N_VECTORS - 1` is passed over is the model's choice (log entry 24). -/
def Obligations.InterruptTakenIff : Prop :=
  ∀ (s : State) (n : Nat),
    s.nextAction = .irq n ↔
      s.currentBoundary.reset = false ∧ s.flag flagI = true ∧ s.irqShadow = false ∧ s.runState ≠ .stopped ∧
      (n ∈ s.currentBoundary.irqs ∧ 1 ≤ n ∧ n < s.cfg.nVectors) ∧
      ∀ m, m ∈ s.currentBoundary.irqs → 1 ≤ m → m < s.cfg.nVectors → n ≤ m

/-- Taking interrupt `n` on a core with SP (R314): the program counter is pushed as by a call, I is cleared and no other flag unless a
pushed byte falls into the I/O space, control goes to the vector, the core runs, the shadow is clear and the environment is told. -/
def Obligations.InterruptEntry : Prop :=
  ∀ (s : State) (n : Nat), s.nextAction = .irq n → CanPush s.cfg.retBytes s →
    ∃ t, step s = .next t ∧ Pushed s.pc s.popBoundary t ∧ t.pc = s.cfg.wrapPc (n * s.cfg.vectorStride) ∧
      t.flag flagI = false ∧ t.runState = .running ∧ t.irqShadow = false ∧ t.events.head? = some (.irqTaken n) ∧
      ((∀ j, j < s.cfg.retBytes → dataRegion s.cfg (s.sp - BitVec.ofNat 16 j) ≠ .io) →
        SameFlags [flagI] s t ∧ t.events = .irqTaken n :: s.events)

/-- Taking interrupt `n` on a core without SP (R45, R314), and the stop when the hardware stack is full. -/
def Obligations.InterruptEntryOnHardwareStack : Prop :=
  ∀ (s : State) (n : Nat), s.nextAction = .irq n → s.cfg.hasSp = false →
    (s.hwStack.length < s.cfg.hwStackDepth → ∃ t, step s = .next t ∧ t.hwStack = s.pc :: s.hwStack ∧
      t.pc = s.cfg.wrapPc (n * s.cfg.vectorStride) ∧ t.flag flagI = false ∧ SameFlags [flagI] s t ∧ SameRegs [] s t ∧
      t.sp = s.sp ∧ SameSram s t ∧ t.rampz = s.rampz ∧ t.eind = s.eind ∧ t.cfg = s.cfg ∧ (∀ b, t.progByte b = s.progByte b) ∧
      t.ioAnswers = s.ioAnswers ∧ t.draws = s.draws ∧ t.boundaries = s.boundaries.tail ∧
      t.runState = .running ∧ t.irqShadow = false ∧ t.events = .irqTaken n :: s.events) ∧
    (s.cfg.hwStackDepth ≤ s.hwStack.length → step s = .fault .hwStackOverflow)

/-- An interrupt taken with the stack in SRAM and a RETI after it bring the machine back to the interrupted instruction: program counter,
SP, registers and SREG as they were (I was 1), and the shadow set, so that one instruction runs before the next interrupt
(R314, R322). -/
def Obligations.InterruptThenReti : Prop :=
  ∀ (s : State) (n : Nat), s.nextAction = .irq n → s.cfg.ok = true → s.pc.toNat < 2 ^ s.cfg.pcBits → s.cfg.hasSp = true →
    (∀ j, j < s.cfg.retBytes → dataRegion s.cfg (s.sp - BitVec.ofNat 16 j) = .sram) →
    ∃ t u, step s = .next t ∧ exec .reti t = .next u ∧ u.pc = s.pc ∧ u.sp = s.sp ∧ SameRegs [] s u ∧ u.sreg = s.sreg ∧
      u.irqShadow = true ∧ u.runState = .running

/-- A reset asserted at a boundary is taken whatever the state (R317, R340): the values of R340, program memory and configuration as
before, the environment told; the registers and SP hold free values, and nothing of SRAM survives: R46 leaves these unspecified, the free values
are the model's form of it (log entry 10). -/
def Obligations.ResetEvent : Prop :=
  ∀ s : State, s.currentBoundary.reset = true →
    ∃ t, step s = .next t ∧ t.pc = 0#22 ∧ t.sreg = 0#8 ∧ t.rampz = 0#8 ∧ t.eind = 0#8 ∧ t.hwStack = [] ∧
      t.irqShadow = false ∧ t.runState = .running ∧ (∀ b, t.progByte b = s.progByte b) ∧ t.cfg = s.cfg ∧
      (∀ i : Reg, t.reg i = Config.freeByte (s.draws + i.val)) ∧
      t.sp = wordOfBytes (Config.freeByte (s.draws + 32)) (Config.freeByte (s.draws + 33)) ∧
      (∀ a, t.sramByte? a = none) ∧ s.draws < t.draws ∧ t.events = .reset :: s.events ∧
      t.boundaries = s.boundaries.tail ∧ t.ioAnswers = s.ioAnswers

/-- A sleeping core with no interrupt to take, and a stopped core, do nothing in a step but pass the boundary (R44, R301, R303, R313); an
ended run stays where it is (R354). That each such step passes one boundary is the model's choice (log entries 21, 28). -/
def Obligations.SleepingStoppedAndEndedRuns : Prop :=
  ∀ s : State, s.currentBoundary.reset = false →
    (s.runState = .stopped → step s = .next s.popBoundary) ∧
    (s.runState = .sleeping → (s.flag flagI = false ∨ s.irqShadow = true ∨ s.currentBoundary.irqs = []) →
      step s = .next s.popBoundary) ∧
    (s.Hung → step s = .next s.popBoundary ∧ s.popBoundary.Hung) ∧
    (∀ a, s.Ended a → a.toNat < 2 ^ s.cfg.pcBits →
      step s = .next s.beginInstr ∧ s.beginInstr.Ended a)

/-- After a step that ran an instruction the shadow is set exactly when the instruction was BSET 7 or RETI, or changed I from 0 to 1
(R43). -/
def Obligations.ShadowAfterInstruction : Prop :=
  ∀ (s t : State) (i : Instr), s.nextAction = .run → s.fetch = .next i → step s = .next t →
    (t.irqShadow = true ↔ i = .bset flagI ∨ i = .reti ∨ (s.flag flagI = false ∧ t.flag flagI = true))

/-! ### Whole-machine statements -/

/-- A flag is written only by the instructions that the table of R33 lists for it and by stores to the SREG location. -/
def Obligations.FlagsWrittenOnlyByTheListed : Prop :=
  ∀ (i : Instr) (s t : State), exec i s = .next t → 0x5F#16 ∉ storeAddrs s i → SameFlags (flagsWritten i) s t

/-- An instruction changes no working register but those it names as destination and those it stores to through the data space
(R26, R61). -/
def Obligations.RegistersWrittenOnlyByTheListed : Prop :=
  ∀ (i : Instr) (s t : State), exec i s = .next t →
    ∀ r : Reg, r ∉ destRegs i → BitVec.ofNat 16 r.val ∉ storeAddrs s i → t.reg r = s.reg r

/-- An instruction changes no SRAM byte but those it stores to, no program byte unless it is SPM, and never the configuration
(R82). -/
def Obligations.MemoryWrittenOnlyAtStoreAddresses : Prop :=
  ∀ (i : Instr) (s t : State), exec i s = .next t →
    (∀ a : Word, a ∉ storeAddrs s i → t.sramByte? a = s.sramByte? a) ∧
    (¬ writesProg i → ∀ b, t.progByte b = s.progByte b) ∧ t.cfg = s.cfg

/-- Every step keeps the invariant. -/
def Obligations.StepKeepsInvariant : Prop := ∀ s t : State, s.Inv → step s = .next t → t.Inv

/-- The state after reset meets the invariant: a statement about the device of log entry 1, the model's choice. -/
def Obligations.ResetMeetsInvariant : Prop := State.reset.Inv

/-- The values that R46 gives for reset. Those of SREG other than I, of RAMPZ and of EIND are ones that R46 tags as general knowledge and
that a reader may leave unspecified (log entry 4); R0..R31 and SP are not stated. The environment has been told of the power-on reset alone,
as R340 emits it (the list of events is the model's form, log entry 9). -/
def Obligations.ResetValues : Prop :=
  State.reset.pc = 0#22 ∧ State.reset.sreg = 0#8 ∧ State.reset.rampz = 0#8 ∧ State.reset.eind = 0#8 ∧
  State.reset.hwStack = [] ∧ State.reset.irqShadow = false ∧ State.reset.runState = .running ∧ State.reset.events = [.reset]

end
end

