-- ==== Sys2Proof/Laws/Memory.lean ====
section
/-! SUPPORT. The laws of sparse memory: read after write, the canonical form kept by every operation, equal reads from canonical
memories mean equal memories. -/

namespace Sys2Proof.Machine

theorem Memory.find?_insert (m : Memory) (a b : Nat) (v : Byte) :
    (m.insert a v).find? b = if b = a then some v else m.find? b := by
  induction m with
  | nil => simp [Memory.insert, Memory.find?]
  | cons c m ih =>
    simp only [Memory.insert]
    split
    · simp [Memory.find?]
    · split
      · next h => subst h; simp only [Memory.find?]; split <;> rfl
      · next h1 h2 =>
        simp only [Memory.find?, ih]
        by_cases hb : b = a
        · subst hb; simp [h2]
        · simp [hb]

theorem Memory.find?_erase (m : Memory) (a b : Nat) :
    (m.erase a).find? b = if b = a then none else m.find? b := by
  induction m with
  | nil => simp [Memory.erase, Memory.find?]
  | cons c m ih =>
    simp only [Memory.erase]
    split
    · next h =>
      rw [ih]
      by_cases hb : b = a
      · simp [hb]
      · simp [hb, Memory.find?, ← h]
    · next h =>
      simp only [Memory.find?, ih]
      by_cases hb : b = a
      · subst hb; simp [h]
      · simp [hb]

/-- Everything a write does to what can be read. -/
theorem Memory.read_write (blank : Option Byte) (m : Memory) (a b : Nat) (v : Byte) :
    (m.write blank a v).read blank b = if b = a then some v else m.read blank b := by
  unfold Memory.write Memory.read
  by_cases hv : blank = some v
  · simp only [hv, if_true, Memory.find?_erase]
    by_cases hb : b = a <;> simp [hb]
  · simp only [hv, if_false, Memory.find?_insert]
    by_cases hb : b = a <;> simp [hb]

theorem Memory.read_write_same (blank : Option Byte) (m : Memory) (a : Nat) (v : Byte) :
    (m.write blank a v).read blank a = some v := by simp [Memory.read_write]

theorem Memory.read_write_other (blank : Option Byte) (m : Memory) (a b : Nat) (v : Byte) (h : b ≠ a) :
    (m.write blank a v).read blank b = m.read blank b := by simp [Memory.read_write, h]

/-! ### The canonical form -/

theorem Memory.wfFrom_mono {blank : Option Byte} {lo hi : Nat} (h : lo ≤ hi) :
    ∀ m : Memory, m.wfFrom blank hi = true → m.wfFrom blank lo = true
  | [], _ => rfl
  | c :: m, hw => by
    simp only [Memory.wfFrom, Bool.and_eq_true, decide_eq_true_eq] at hw ⊢
    exact ⟨⟨by omega, hw.1.2⟩, hw.2⟩

theorem Memory.wfFrom_insert {blank : Option Byte} {v : Byte} (hv : blank ≠ some v) {a : Nat} :
    ∀ (m : Memory) (lo : Nat), lo ≤ a → m.wfFrom blank lo = true → (m.insert a v).wfFrom blank lo = true
  | [], lo, hlo, _ => by simp [Memory.insert, Memory.wfFrom, hlo, hv]
  | c :: m, lo, hlo, hw => by
    simp only [Memory.wfFrom, Bool.and_eq_true, decide_eq_true_eq] at hw
    simp only [Memory.insert]
    split
    · next h =>
      simp only [Memory.wfFrom, Bool.and_eq_true, decide_eq_true_eq]
      exact ⟨⟨hlo, hv⟩, ⟨⟨by omega, hw.1.2⟩, hw.2⟩⟩
    · split
      · next h1 h2 =>
        simp only [Memory.wfFrom, Bool.and_eq_true, decide_eq_true_eq]
        exact ⟨⟨hlo, hv⟩, h2 ▸ hw.2⟩
      · next h1 h2 =>
        simp only [Memory.wfFrom, Bool.and_eq_true, decide_eq_true_eq]
        exact ⟨hw.1, Memory.wfFrom_insert hv m _ (by omega) hw.2⟩

theorem Memory.wfFrom_erase {blank : Option Byte} {a : Nat} :
    ∀ (m : Memory) (lo : Nat), m.wfFrom blank lo = true → (m.erase a).wfFrom blank lo = true
  | [], _, _ => rfl
  | c :: m, lo, hw => by
    simp only [Memory.wfFrom, Bool.and_eq_true, decide_eq_true_eq] at hw
    simp only [Memory.erase]
    split
    · exact Memory.wfFrom_erase m lo (Memory.wfFrom_mono (by omega) m hw.2)
    · simp only [Memory.wfFrom, Bool.and_eq_true, decide_eq_true_eq]
      exact ⟨hw.1, Memory.wfFrom_erase m _ hw.2⟩

/-- Every write keeps the canonical form. -/
theorem Memory.wf_write {blank : Option Byte} {m : Memory} (a : Nat) (v : Byte) (h : m.wf blank = true) :
    (m.write blank a v).wf blank = true := by
  unfold Memory.write Memory.wf
  split
  · exact Memory.wfFrom_erase m 0 h
  · next hv => exact Memory.wfFrom_insert hv m 0 (Nat.zero_le a) h

theorem Memory.all_write {p : Host.Cell → Bool} (blank : Option Byte) {m : Memory} {a : Nat} {v : Byte} (ha : p (a, v) = true)
    (h : m.all p = true) : (m.write blank a v).all p = true := by
  have hi : ∀ m : Memory, m.all p = true → (m.insert a v).all p = true := by
    intro m
    induction m with
    | nil => intro _; simp [Memory.insert, ha]
    | cons c m ih =>
      intro h
      simp only [List.all_cons, Bool.and_eq_true] at h
      simp only [Memory.insert]
      split
      · simp only [List.all_cons, Bool.and_eq_true]; exact ⟨ha, h⟩
      · split
        · simp only [List.all_cons, Bool.and_eq_true]; exact ⟨ha, h.2⟩
        · simp only [List.all_cons, Bool.and_eq_true]; exact ⟨h.1, ih h.2⟩
  have he : ∀ m : Memory, m.all p = true → (m.erase a).all p = true := by
    intro m
    induction m with
    | nil => intro _; rfl
    | cons c m ih =>
      intro h
      simp only [List.all_cons, Bool.and_eq_true] at h
      simp only [Memory.erase]
      split
      · exact ih h.2
      · simp only [List.all_cons, Bool.and_eq_true]; exact ⟨h.1, ih h.2⟩
  unfold Memory.write
  split
  · exact he m h
  · exact hi m h

/-- A write at an address below `hi` keeps every listed address below `hi`. -/
theorem Memory.below_write {blank : Option Byte} {hi : Nat} {m : Memory} {a : Nat} {v : Byte} (ha : a < hi)
    (h : m.below hi = true) : (m.write blank a v).below hi = true :=
  Memory.all_write blank (by simpa using ha) h

theorem Memory.find?_none_of_wfFrom {blank : Option Byte} {a : Nat} :
    ∀ (m : Memory) (lo : Nat), m.wfFrom blank lo = true → a < lo → m.find? a = none
  | [], _, _, _ => rfl
  | c :: m, lo, hw, ha => by
    simp only [Memory.wfFrom, Bool.and_eq_true, decide_eq_true_eq] at hw
    have hne : a ≠ c.1 := by omega
    simp only [Memory.find?, hne, if_false]
    exact Memory.find?_none_of_wfFrom m _ hw.2 (by omega)

theorem Memory.read_eq_iff_find? {blank : Option Byte} {m : Memory} {lo a : Nat} {v : Byte} (hw : m.wfFrom blank lo = true) :
    m.find? a = some v → blank ≠ some v := by
  induction m generalizing lo with
  | nil => intro h; simp [Memory.find?] at h
  | cons c m ih =>
    simp only [Memory.wfFrom, Bool.and_eq_true, decide_eq_true_eq] at hw
    simp only [Memory.find?]
    split
    · intro h; cases h; exact hw.1.2
    · exact ih hw.2

/-- Two canonical memories that read alike are equal. -/
theorem Memory.eq_of_read {blank : Option Byte} : ∀ (m n : Memory) (lo : Nat), m.wfFrom blank lo = true →
    n.wfFrom blank lo = true → (∀ a, m.read blank a = n.read blank a) → m = n := by
  have key : ∀ (m n : Memory) (lo : Nat), m.wfFrom blank lo = true → n.wfFrom blank lo = true →
      (∀ a, m.read blank a = n.read blank a) → ∀ a, m.find? a = n.find? a := by
    intro m n lo hm hn h a
    have := h a
    unfold Memory.read at this
    rcases hma : m.find? a with _ | v <;> rcases hna : n.find? a with _ | w
    · rfl
    · simp only [hma, hna] at this; exact absurd this (Memory.read_eq_iff_find? hn hna)
    · simp only [hma, hna] at this; exact absurd this.symm (Memory.read_eq_iff_find? hm hma)
    · simp only [hma, hna] at this; exact this
  have fin : ∀ (m n : Memory) (lo : Nat), m.wfFrom blank lo = true → n.wfFrom blank lo = true →
      (∀ a, m.find? a = n.find? a) → m = n := by
    intro m
    induction m with
    | nil =>
      intro n lo _ _ h
      cases n with
      | nil => rfl
      | cons d n => have := h d.1; simp [Memory.find?] at this
    | cons c m ih =>
      intro n lo hm hn h
      cases n with
      | nil => have := h c.1; simp [Memory.find?] at this
      | cons d n =>
        simp only [Memory.wfFrom, Bool.and_eq_true, decide_eq_true_eq] at hm hn
        have hcd : c.1 = d.1 := by
          rcases Nat.lt_trichotomy c.1 d.1 with hlt | heq | hgt
          · have := h c.1
            have hne : c.1 ≠ d.1 := by omega
            simp only [Memory.find?, if_true, hne, if_false] at this
            rw [Memory.find?_none_of_wfFrom n _ hn.2 (by omega)] at this
            cases this
          · exact heq
          · have := h d.1
            have hne : d.1 ≠ c.1 := by omega
            simp only [Memory.find?, if_true, hne, if_false] at this
            rw [Memory.find?_none_of_wfFrom m _ hm.2 (by omega)] at this
            cases this
        have hv : c.2 = d.2 := by
          have := h c.1
          simp only [Memory.find?, if_true, hcd] at this
          exact Option.some.inj this
        have hc : c = d := Prod.ext hcd hv
        subst hc
        congr 1
        refine ih n (c.1 + 1) hm.2 hn.2 fun a => ?_
        by_cases ha : a = c.1
        · rw [ha, Memory.find?_none_of_wfFrom m _ hm.2 (by omega), Memory.find?_none_of_wfFrom n _ hn.2 (by omega)]
        · have := h a
          simpa only [Memory.find?, ha, if_false] using this
  exact fun m n lo hm hn h => fin m n lo hm hn (key m n lo hm hn h)

end Sys2Proof.Machine
end

