-- ==== Sys2Proof/Laws/State.lean ====
section
/-! SUPPORT. One lemma per field per state update, each by `rfl`, and the same for the accessors: later proofs rewrite with
these and unfold no update. -/

namespace Sys2Proof.Machine

/-! ### setReg -/

@[simp] theorem State.setReg_cfg (s : State) (i : Reg) (v : Byte) : (s.setReg i v).cfg = s.cfg := rfl
@[simp] theorem State.setReg_regs (s : State) (i : Reg) (v : Byte) : (s.setReg i v).regs = s.regs.set i.val v i.isLt := rfl
@[simp] theorem State.setReg_pc (s : State) (i : Reg) (v : Byte) : (s.setReg i v).pc = s.pc := rfl
@[simp] theorem State.setReg_sreg (s : State) (i : Reg) (v : Byte) : (s.setReg i v).sreg = s.sreg := rfl
@[simp] theorem State.setReg_sp (s : State) (i : Reg) (v : Byte) : (s.setReg i v).sp = s.sp := rfl
@[simp] theorem State.setReg_rampz (s : State) (i : Reg) (v : Byte) : (s.setReg i v).rampz = s.rampz := rfl
@[simp] theorem State.setReg_eind (s : State) (i : Reg) (v : Byte) : (s.setReg i v).eind = s.eind := rfl
@[simp] theorem State.setReg_sram (s : State) (i : Reg) (v : Byte) : (s.setReg i v).sram = s.sram := rfl
@[simp] theorem State.setReg_hwStack (s : State) (i : Reg) (v : Byte) : (s.setReg i v).hwStack = s.hwStack := rfl
@[simp] theorem State.setReg_prog (s : State) (i : Reg) (v : Byte) : (s.setReg i v).prog = s.prog := rfl
@[simp] theorem State.setReg_irqShadow (s : State) (i : Reg) (v : Byte) : (s.setReg i v).irqShadow = s.irqShadow := rfl
@[simp] theorem State.setReg_runState (s : State) (i : Reg) (v : Byte) : (s.setReg i v).runState = s.runState := rfl
@[simp] theorem State.setReg_boundaries (s : State) (i : Reg) (v : Byte) : (s.setReg i v).boundaries = s.boundaries := rfl
@[simp] theorem State.setReg_ioAnswers (s : State) (i : Reg) (v : Byte) : (s.setReg i v).ioAnswers = s.ioAnswers := rfl
@[simp] theorem State.setReg_events (s : State) (i : Reg) (v : Byte) : (s.setReg i v).events = s.events := rfl
@[simp] theorem State.setReg_draws (s : State) (i : Reg) (v : Byte) : (s.setReg i v).draws = s.draws := rfl
@[simp] theorem State.setReg_flag (s : State) (i : Reg) (v : Byte) (b : Flag) : (s.setReg i v).flag b = s.flag b := rfl
@[simp] theorem State.setReg_sramByte (s : State) (i : Reg) (v : Byte) (a : Word) : (s.setReg i v).sramByte? a = s.sramByte? a := rfl
@[simp] theorem State.setReg_progByte (s : State) (i : Reg) (v : Byte) (b : Nat) : (s.setReg i v).progByte b = s.progByte b := rfl

/-! ### setPair -/

@[simp] theorem State.setPair_cfg (s : State) (i : Reg) (v : Word) : (s.setPair i v).cfg = s.cfg := rfl
@[simp] theorem State.setPair_pc (s : State) (i : Reg) (v : Word) : (s.setPair i v).pc = s.pc := rfl
@[simp] theorem State.setPair_sreg (s : State) (i : Reg) (v : Word) : (s.setPair i v).sreg = s.sreg := rfl
@[simp] theorem State.setPair_sp (s : State) (i : Reg) (v : Word) : (s.setPair i v).sp = s.sp := rfl
@[simp] theorem State.setPair_rampz (s : State) (i : Reg) (v : Word) : (s.setPair i v).rampz = s.rampz := rfl
@[simp] theorem State.setPair_eind (s : State) (i : Reg) (v : Word) : (s.setPair i v).eind = s.eind := rfl
@[simp] theorem State.setPair_sram (s : State) (i : Reg) (v : Word) : (s.setPair i v).sram = s.sram := rfl
@[simp] theorem State.setPair_hwStack (s : State) (i : Reg) (v : Word) : (s.setPair i v).hwStack = s.hwStack := rfl
@[simp] theorem State.setPair_prog (s : State) (i : Reg) (v : Word) : (s.setPair i v).prog = s.prog := rfl
@[simp] theorem State.setPair_irqShadow (s : State) (i : Reg) (v : Word) : (s.setPair i v).irqShadow = s.irqShadow := rfl
@[simp] theorem State.setPair_runState (s : State) (i : Reg) (v : Word) : (s.setPair i v).runState = s.runState := rfl
@[simp] theorem State.setPair_boundaries (s : State) (i : Reg) (v : Word) : (s.setPair i v).boundaries = s.boundaries := rfl
@[simp] theorem State.setPair_ioAnswers (s : State) (i : Reg) (v : Word) : (s.setPair i v).ioAnswers = s.ioAnswers := rfl
@[simp] theorem State.setPair_events (s : State) (i : Reg) (v : Word) : (s.setPair i v).events = s.events := rfl
@[simp] theorem State.setPair_draws (s : State) (i : Reg) (v : Word) : (s.setPair i v).draws = s.draws := rfl
@[simp] theorem State.setPair_flag (s : State) (i : Reg) (v : Word) (b : Flag) : (s.setPair i v).flag b = s.flag b := rfl
@[simp] theorem State.setPair_sramByte (s : State) (i : Reg) (v : Word) (a : Word) : (s.setPair i v).sramByte? a = s.sramByte? a := rfl
@[simp] theorem State.setPair_progByte (s : State) (i : Reg) (v : Word) (b : Nat) : (s.setPair i v).progByte b = s.progByte b := rfl

/-! ### setPc -/

@[simp] theorem State.setPc_cfg (s : State) (n : Nat) : (s.setPc n).cfg = s.cfg := rfl
@[simp] theorem State.setPc_regs (s : State) (n : Nat) : (s.setPc n).regs = s.regs := rfl
@[simp] theorem State.setPc_pc (s : State) (n : Nat) : (s.setPc n).pc = s.cfg.wrapPc n := rfl
@[simp] theorem State.setPc_sreg (s : State) (n : Nat) : (s.setPc n).sreg = s.sreg := rfl
@[simp] theorem State.setPc_sp (s : State) (n : Nat) : (s.setPc n).sp = s.sp := rfl
@[simp] theorem State.setPc_rampz (s : State) (n : Nat) : (s.setPc n).rampz = s.rampz := rfl
@[simp] theorem State.setPc_eind (s : State) (n : Nat) : (s.setPc n).eind = s.eind := rfl
@[simp] theorem State.setPc_sram (s : State) (n : Nat) : (s.setPc n).sram = s.sram := rfl
@[simp] theorem State.setPc_hwStack (s : State) (n : Nat) : (s.setPc n).hwStack = s.hwStack := rfl
@[simp] theorem State.setPc_prog (s : State) (n : Nat) : (s.setPc n).prog = s.prog := rfl
@[simp] theorem State.setPc_irqShadow (s : State) (n : Nat) : (s.setPc n).irqShadow = s.irqShadow := rfl
@[simp] theorem State.setPc_runState (s : State) (n : Nat) : (s.setPc n).runState = s.runState := rfl
@[simp] theorem State.setPc_boundaries (s : State) (n : Nat) : (s.setPc n).boundaries = s.boundaries := rfl
@[simp] theorem State.setPc_ioAnswers (s : State) (n : Nat) : (s.setPc n).ioAnswers = s.ioAnswers := rfl
@[simp] theorem State.setPc_events (s : State) (n : Nat) : (s.setPc n).events = s.events := rfl
@[simp] theorem State.setPc_draws (s : State) (n : Nat) : (s.setPc n).draws = s.draws := rfl
@[simp] theorem State.setPc_reg (s : State) (n : Nat) (j : Reg) : (s.setPc n).reg j = s.reg j := rfl
@[simp] theorem State.setPc_flag (s : State) (n : Nat) (b : Flag) : (s.setPc n).flag b = s.flag b := rfl
@[simp] theorem State.setPc_sramByte (s : State) (n : Nat) (a : Word) : (s.setPc n).sramByte? a = s.sramByte? a := rfl
@[simp] theorem State.setPc_progByte (s : State) (n : Nat) (b : Nat) : (s.setPc n).progByte b = s.progByte b := rfl
@[simp] theorem State.setPc_pair (s : State) (n : Nat) (j : Reg) : (s.setPc n).pair j = s.pair j := rfl
@[simp] theorem State.setPc_ptr (s : State) (n : Nat) (p : Ptr) : (s.setPc n).ptr p = s.ptr p := rfl

/-! ### advance -/

@[simp] theorem State.advance_cfg (s : State) (n : Nat) : (s.advance n).cfg = s.cfg := rfl
@[simp] theorem State.advance_regs (s : State) (n : Nat) : (s.advance n).regs = s.regs := rfl
@[simp] theorem State.advance_pc (s : State) (n : Nat) : (s.advance n).pc = s.cfg.wrapPc (s.pc.toNat + n) := rfl
@[simp] theorem State.advance_sreg (s : State) (n : Nat) : (s.advance n).sreg = s.sreg := rfl
@[simp] theorem State.advance_sp (s : State) (n : Nat) : (s.advance n).sp = s.sp := rfl
@[simp] theorem State.advance_rampz (s : State) (n : Nat) : (s.advance n).rampz = s.rampz := rfl
@[simp] theorem State.advance_eind (s : State) (n : Nat) : (s.advance n).eind = s.eind := rfl
@[simp] theorem State.advance_sram (s : State) (n : Nat) : (s.advance n).sram = s.sram := rfl
@[simp] theorem State.advance_hwStack (s : State) (n : Nat) : (s.advance n).hwStack = s.hwStack := rfl
@[simp] theorem State.advance_prog (s : State) (n : Nat) : (s.advance n).prog = s.prog := rfl
@[simp] theorem State.advance_irqShadow (s : State) (n : Nat) : (s.advance n).irqShadow = s.irqShadow := rfl
@[simp] theorem State.advance_runState (s : State) (n : Nat) : (s.advance n).runState = s.runState := rfl
@[simp] theorem State.advance_boundaries (s : State) (n : Nat) : (s.advance n).boundaries = s.boundaries := rfl
@[simp] theorem State.advance_ioAnswers (s : State) (n : Nat) : (s.advance n).ioAnswers = s.ioAnswers := rfl
@[simp] theorem State.advance_events (s : State) (n : Nat) : (s.advance n).events = s.events := rfl
@[simp] theorem State.advance_draws (s : State) (n : Nat) : (s.advance n).draws = s.draws := rfl
@[simp] theorem State.advance_reg (s : State) (n : Nat) (j : Reg) : (s.advance n).reg j = s.reg j := rfl
@[simp] theorem State.advance_flag (s : State) (n : Nat) (b : Flag) : (s.advance n).flag b = s.flag b := rfl
@[simp] theorem State.advance_sramByte (s : State) (n : Nat) (a : Word) : (s.advance n).sramByte? a = s.sramByte? a := rfl
@[simp] theorem State.advance_progByte (s : State) (n : Nat) (b : Nat) : (s.advance n).progByte b = s.progByte b := rfl
@[simp] theorem State.advance_pair (s : State) (n : Nat) (j : Reg) : (s.advance n).pair j = s.pair j := rfl
@[simp] theorem State.advance_ptr (s : State) (n : Nat) (p : Ptr) : (s.advance n).ptr p = s.ptr p := rfl

/-! ### setSreg -/

@[simp] theorem State.setSreg_cfg (s : State) (v : Byte) : (s.setSreg v).cfg = s.cfg := rfl
@[simp] theorem State.setSreg_regs (s : State) (v : Byte) : (s.setSreg v).regs = s.regs := rfl
@[simp] theorem State.setSreg_pc (s : State) (v : Byte) : (s.setSreg v).pc = s.pc := rfl
@[simp] theorem State.setSreg_sreg (s : State) (v : Byte) : (s.setSreg v).sreg = v := rfl
@[simp] theorem State.setSreg_sp (s : State) (v : Byte) : (s.setSreg v).sp = s.sp := rfl
@[simp] theorem State.setSreg_rampz (s : State) (v : Byte) : (s.setSreg v).rampz = s.rampz := rfl
@[simp] theorem State.setSreg_eind (s : State) (v : Byte) : (s.setSreg v).eind = s.eind := rfl
@[simp] theorem State.setSreg_sram (s : State) (v : Byte) : (s.setSreg v).sram = s.sram := rfl
@[simp] theorem State.setSreg_hwStack (s : State) (v : Byte) : (s.setSreg v).hwStack = s.hwStack := rfl
@[simp] theorem State.setSreg_prog (s : State) (v : Byte) : (s.setSreg v).prog = s.prog := rfl
@[simp] theorem State.setSreg_irqShadow (s : State) (v : Byte) : (s.setSreg v).irqShadow = s.irqShadow := rfl
@[simp] theorem State.setSreg_runState (s : State) (v : Byte) : (s.setSreg v).runState = s.runState := rfl
@[simp] theorem State.setSreg_boundaries (s : State) (v : Byte) : (s.setSreg v).boundaries = s.boundaries := rfl
@[simp] theorem State.setSreg_ioAnswers (s : State) (v : Byte) : (s.setSreg v).ioAnswers = s.ioAnswers := rfl
@[simp] theorem State.setSreg_events (s : State) (v : Byte) : (s.setSreg v).events = s.events := rfl
@[simp] theorem State.setSreg_draws (s : State) (v : Byte) : (s.setSreg v).draws = s.draws := rfl
@[simp] theorem State.setSreg_reg (s : State) (v : Byte) (j : Reg) : (s.setSreg v).reg j = s.reg j := rfl
@[simp] theorem State.setSreg_sramByte (s : State) (v : Byte) (a : Word) : (s.setSreg v).sramByte? a = s.sramByte? a := rfl
@[simp] theorem State.setSreg_progByte (s : State) (v : Byte) (b : Nat) : (s.setSreg v).progByte b = s.progByte b := rfl
@[simp] theorem State.setSreg_pair (s : State) (v : Byte) (j : Reg) : (s.setSreg v).pair j = s.pair j := rfl
@[simp] theorem State.setSreg_ptr (s : State) (v : Byte) (p : Ptr) : (s.setSreg v).ptr p = s.ptr p := rfl

/-! ### writeSreg -/

@[simp] theorem State.writeSreg_cfg (s : State) (v : Byte) : (s.writeSreg v).cfg = s.cfg := rfl
@[simp] theorem State.writeSreg_regs (s : State) (v : Byte) : (s.writeSreg v).regs = s.regs := rfl
@[simp] theorem State.writeSreg_pc (s : State) (v : Byte) : (s.writeSreg v).pc = s.pc := rfl
@[simp] theorem State.writeSreg_sreg (s : State) (v : Byte) : (s.writeSreg v).sreg = v := rfl
@[simp] theorem State.writeSreg_sp (s : State) (v : Byte) : (s.writeSreg v).sp = s.sp := rfl
@[simp] theorem State.writeSreg_rampz (s : State) (v : Byte) : (s.writeSreg v).rampz = s.rampz := rfl
@[simp] theorem State.writeSreg_eind (s : State) (v : Byte) : (s.writeSreg v).eind = s.eind := rfl
@[simp] theorem State.writeSreg_sram (s : State) (v : Byte) : (s.writeSreg v).sram = s.sram := rfl
@[simp] theorem State.writeSreg_hwStack (s : State) (v : Byte) : (s.writeSreg v).hwStack = s.hwStack := rfl
@[simp] theorem State.writeSreg_prog (s : State) (v : Byte) : (s.writeSreg v).prog = s.prog := rfl
@[simp] theorem State.writeSreg_irqShadow (s : State) (v : Byte) : (s.writeSreg v).irqShadow = (s.irqShadow || (!s.sreg.getLsbD flagI.val && v.getLsbD flagI.val)) := rfl
@[simp] theorem State.writeSreg_runState (s : State) (v : Byte) : (s.writeSreg v).runState = s.runState := rfl
@[simp] theorem State.writeSreg_boundaries (s : State) (v : Byte) : (s.writeSreg v).boundaries = s.boundaries := rfl
@[simp] theorem State.writeSreg_ioAnswers (s : State) (v : Byte) : (s.writeSreg v).ioAnswers = s.ioAnswers := rfl
@[simp] theorem State.writeSreg_events (s : State) (v : Byte) : (s.writeSreg v).events = s.events := rfl
@[simp] theorem State.writeSreg_draws (s : State) (v : Byte) : (s.writeSreg v).draws = s.draws := rfl
@[simp] theorem State.writeSreg_reg (s : State) (v : Byte) (j : Reg) : (s.writeSreg v).reg j = s.reg j := rfl
@[simp] theorem State.writeSreg_sramByte (s : State) (v : Byte) (a : Word) : (s.writeSreg v).sramByte? a = s.sramByte? a := rfl
@[simp] theorem State.writeSreg_progByte (s : State) (v : Byte) (b : Nat) : (s.writeSreg v).progByte b = s.progByte b := rfl
@[simp] theorem State.writeSreg_pair (s : State) (v : Byte) (j : Reg) : (s.writeSreg v).pair j = s.pair j := rfl
@[simp] theorem State.writeSreg_ptr (s : State) (v : Byte) (p : Ptr) : (s.writeSreg v).ptr p = s.ptr p := rfl

/-! ### emit -/

@[simp] theorem State.emit_cfg (s : State) (e : EnvEvent) : (s.emit e).cfg = s.cfg := rfl
@[simp] theorem State.emit_regs (s : State) (e : EnvEvent) : (s.emit e).regs = s.regs := rfl
@[simp] theorem State.emit_pc (s : State) (e : EnvEvent) : (s.emit e).pc = s.pc := rfl
@[simp] theorem State.emit_sreg (s : State) (e : EnvEvent) : (s.emit e).sreg = s.sreg := rfl
@[simp] theorem State.emit_sp (s : State) (e : EnvEvent) : (s.emit e).sp = s.sp := rfl
@[simp] theorem State.emit_rampz (s : State) (e : EnvEvent) : (s.emit e).rampz = s.rampz := rfl
@[simp] theorem State.emit_eind (s : State) (e : EnvEvent) : (s.emit e).eind = s.eind := rfl
@[simp] theorem State.emit_sram (s : State) (e : EnvEvent) : (s.emit e).sram = s.sram := rfl
@[simp] theorem State.emit_hwStack (s : State) (e : EnvEvent) : (s.emit e).hwStack = s.hwStack := rfl
@[simp] theorem State.emit_prog (s : State) (e : EnvEvent) : (s.emit e).prog = s.prog := rfl
@[simp] theorem State.emit_irqShadow (s : State) (e : EnvEvent) : (s.emit e).irqShadow = s.irqShadow := rfl
@[simp] theorem State.emit_runState (s : State) (e : EnvEvent) : (s.emit e).runState = s.runState := rfl
@[simp] theorem State.emit_boundaries (s : State) (e : EnvEvent) : (s.emit e).boundaries = s.boundaries := rfl
@[simp] theorem State.emit_ioAnswers (s : State) (e : EnvEvent) : (s.emit e).ioAnswers = s.ioAnswers := rfl
@[simp] theorem State.emit_events (s : State) (e : EnvEvent) : (s.emit e).events = e :: s.events := rfl
@[simp] theorem State.emit_draws (s : State) (e : EnvEvent) : (s.emit e).draws = s.draws := rfl
@[simp] theorem State.emit_reg (s : State) (e : EnvEvent) (j : Reg) : (s.emit e).reg j = s.reg j := rfl
@[simp] theorem State.emit_flag (s : State) (e : EnvEvent) (b : Flag) : (s.emit e).flag b = s.flag b := rfl
@[simp] theorem State.emit_sramByte (s : State) (e : EnvEvent) (a : Word) : (s.emit e).sramByte? a = s.sramByte? a := rfl
@[simp] theorem State.emit_progByte (s : State) (e : EnvEvent) (b : Nat) : (s.emit e).progByte b = s.progByte b := rfl
@[simp] theorem State.emit_pair (s : State) (e : EnvEvent) (j : Reg) : (s.emit e).pair j = s.pair j := rfl
@[simp] theorem State.emit_ptr (s : State) (e : EnvEvent) (p : Ptr) : (s.emit e).ptr p = s.ptr p := rfl

/-! ### setProgWord -/

@[simp] theorem State.setProgWord_cfg (s : State) (n : Nat) (w : Word) : (s.setProgWord n w).cfg = s.cfg := rfl
@[simp] theorem State.setProgWord_regs (s : State) (n : Nat) (w : Word) : (s.setProgWord n w).regs = s.regs := rfl
@[simp] theorem State.setProgWord_pc (s : State) (n : Nat) (w : Word) : (s.setProgWord n w).pc = s.pc := rfl
@[simp] theorem State.setProgWord_sreg (s : State) (n : Nat) (w : Word) : (s.setProgWord n w).sreg = s.sreg := rfl
@[simp] theorem State.setProgWord_sp (s : State) (n : Nat) (w : Word) : (s.setProgWord n w).sp = s.sp := rfl
@[simp] theorem State.setProgWord_rampz (s : State) (n : Nat) (w : Word) : (s.setProgWord n w).rampz = s.rampz := rfl
@[simp] theorem State.setProgWord_eind (s : State) (n : Nat) (w : Word) : (s.setProgWord n w).eind = s.eind := rfl
@[simp] theorem State.setProgWord_sram (s : State) (n : Nat) (w : Word) : (s.setProgWord n w).sram = s.sram := rfl
@[simp] theorem State.setProgWord_hwStack (s : State) (n : Nat) (w : Word) : (s.setProgWord n w).hwStack = s.hwStack := rfl
@[simp] theorem State.setProgWord_irqShadow (s : State) (n : Nat) (w : Word) : (s.setProgWord n w).irqShadow = s.irqShadow := rfl
@[simp] theorem State.setProgWord_runState (s : State) (n : Nat) (w : Word) : (s.setProgWord n w).runState = s.runState := rfl
@[simp] theorem State.setProgWord_boundaries (s : State) (n : Nat) (w : Word) : (s.setProgWord n w).boundaries = s.boundaries := rfl
@[simp] theorem State.setProgWord_ioAnswers (s : State) (n : Nat) (w : Word) : (s.setProgWord n w).ioAnswers = s.ioAnswers := rfl
@[simp] theorem State.setProgWord_events (s : State) (n : Nat) (w : Word) : (s.setProgWord n w).events = s.events := rfl
@[simp] theorem State.setProgWord_draws (s : State) (n : Nat) (w : Word) : (s.setProgWord n w).draws = s.draws := rfl
@[simp] theorem State.setProgWord_reg (s : State) (n : Nat) (w : Word) (j : Reg) : (s.setProgWord n w).reg j = s.reg j := rfl
@[simp] theorem State.setProgWord_flag (s : State) (n : Nat) (w : Word) (b : Flag) : (s.setProgWord n w).flag b = s.flag b := rfl
@[simp] theorem State.setProgWord_sramByte (s : State) (n : Nat) (w : Word) (a : Word) : (s.setProgWord n w).sramByte? a = s.sramByte? a := rfl
@[simp] theorem State.setProgWord_pair (s : State) (n : Nat) (w : Word) (j : Reg) : (s.setProgWord n w).pair j = s.pair j := rfl
@[simp] theorem State.setProgWord_ptr (s : State) (n : Nat) (w : Word) (p : Ptr) : (s.setProgWord n w).ptr p = s.ptr p := rfl

/-! ### popBoundary -/

@[simp] theorem State.popBoundary_cfg (s : State) : (s.popBoundary).cfg = s.cfg := rfl
@[simp] theorem State.popBoundary_regs (s : State) : (s.popBoundary).regs = s.regs := rfl
@[simp] theorem State.popBoundary_pc (s : State) : (s.popBoundary).pc = s.pc := rfl
@[simp] theorem State.popBoundary_sreg (s : State) : (s.popBoundary).sreg = s.sreg := rfl
@[simp] theorem State.popBoundary_sp (s : State) : (s.popBoundary).sp = s.sp := rfl
@[simp] theorem State.popBoundary_rampz (s : State) : (s.popBoundary).rampz = s.rampz := rfl
@[simp] theorem State.popBoundary_eind (s : State) : (s.popBoundary).eind = s.eind := rfl
@[simp] theorem State.popBoundary_sram (s : State) : (s.popBoundary).sram = s.sram := rfl
@[simp] theorem State.popBoundary_hwStack (s : State) : (s.popBoundary).hwStack = s.hwStack := rfl
@[simp] theorem State.popBoundary_prog (s : State) : (s.popBoundary).prog = s.prog := rfl
@[simp] theorem State.popBoundary_irqShadow (s : State) : (s.popBoundary).irqShadow = s.irqShadow := rfl
@[simp] theorem State.popBoundary_runState (s : State) : (s.popBoundary).runState = s.runState := rfl
@[simp] theorem State.popBoundary_boundaries (s : State) : (s.popBoundary).boundaries = s.boundaries.tail := rfl
@[simp] theorem State.popBoundary_ioAnswers (s : State) : (s.popBoundary).ioAnswers = s.ioAnswers := rfl
@[simp] theorem State.popBoundary_events (s : State) : (s.popBoundary).events = s.events := rfl
@[simp] theorem State.popBoundary_draws (s : State) : (s.popBoundary).draws = s.draws := rfl
@[simp] theorem State.popBoundary_reg (s : State) (j : Reg) : (s.popBoundary).reg j = s.reg j := rfl
@[simp] theorem State.popBoundary_flag (s : State) (b : Flag) : (s.popBoundary).flag b = s.flag b := rfl
@[simp] theorem State.popBoundary_sramByte (s : State) (a : Word) : (s.popBoundary).sramByte? a = s.sramByte? a := rfl
@[simp] theorem State.popBoundary_progByte (s : State) (b : Nat) : (s.popBoundary).progByte b = s.progByte b := rfl
@[simp] theorem State.popBoundary_pair (s : State) (j : Reg) : (s.popBoundary).pair j = s.pair j := rfl
@[simp] theorem State.popBoundary_ptr (s : State) (p : Ptr) : (s.popBoundary).ptr p = s.ptr p := rfl

/-! ### beginInstr -/

@[simp] theorem State.beginInstr_cfg (s : State) : (s.beginInstr).cfg = s.cfg := rfl
@[simp] theorem State.beginInstr_regs (s : State) : (s.beginInstr).regs = s.regs := rfl
@[simp] theorem State.beginInstr_pc (s : State) : (s.beginInstr).pc = s.pc := rfl
@[simp] theorem State.beginInstr_sreg (s : State) : (s.beginInstr).sreg = s.sreg := rfl
@[simp] theorem State.beginInstr_sp (s : State) : (s.beginInstr).sp = s.sp := rfl
@[simp] theorem State.beginInstr_rampz (s : State) : (s.beginInstr).rampz = s.rampz := rfl
@[simp] theorem State.beginInstr_eind (s : State) : (s.beginInstr).eind = s.eind := rfl
@[simp] theorem State.beginInstr_sram (s : State) : (s.beginInstr).sram = s.sram := rfl
@[simp] theorem State.beginInstr_hwStack (s : State) : (s.beginInstr).hwStack = s.hwStack := rfl
@[simp] theorem State.beginInstr_prog (s : State) : (s.beginInstr).prog = s.prog := rfl
@[simp] theorem State.beginInstr_irqShadow (s : State) : (s.beginInstr).irqShadow = false := rfl
@[simp] theorem State.beginInstr_runState (s : State) : (s.beginInstr).runState = s.runState := rfl
@[simp] theorem State.beginInstr_boundaries (s : State) : (s.beginInstr).boundaries = s.boundaries.tail := rfl
@[simp] theorem State.beginInstr_ioAnswers (s : State) : (s.beginInstr).ioAnswers = s.ioAnswers := rfl
@[simp] theorem State.beginInstr_events (s : State) : (s.beginInstr).events = s.events := rfl
@[simp] theorem State.beginInstr_draws (s : State) : (s.beginInstr).draws = s.draws := rfl
@[simp] theorem State.beginInstr_reg (s : State) (j : Reg) : (s.beginInstr).reg j = s.reg j := rfl
@[simp] theorem State.beginInstr_flag (s : State) (b : Flag) : (s.beginInstr).flag b = s.flag b := rfl
@[simp] theorem State.beginInstr_sramByte (s : State) (a : Word) : (s.beginInstr).sramByte? a = s.sramByte? a := rfl
@[simp] theorem State.beginInstr_progByte (s : State) (b : Nat) : (s.beginInstr).progByte b = s.progByte b := rfl
@[simp] theorem State.beginInstr_pair (s : State) (j : Reg) : (s.beginInstr).pair j = s.pair j := rfl
@[simp] theorem State.beginInstr_ptr (s : State) (p : Ptr) : (s.beginInstr).ptr p = s.ptr p := rfl

/-! ### Registers (R20, R23) -/

@[simp] theorem State.reg_setReg_same (s : State) (i : Reg) (v : Byte) : (s.setReg i v).reg i = v := by
  simp [State.reg, State.setReg]

theorem State.reg_setReg_other (s : State) (i j : Reg) (v : Byte) (h : j ≠ i) : (s.setReg i v).reg j = s.reg j := by
  have h' : i.val ≠ j.val := fun e => h (Fin.ext e.symm)
  simp [State.reg, State.setReg, h']

/-- Everything a register write does to the registers. -/
theorem State.reg_setReg (s : State) (i j : Reg) (v : Byte) : (s.setReg i v).reg j = if j = i then v else s.reg j := by
  split
  · next h => rw [h, State.reg_setReg_same]
  · next h => rw [State.reg_setReg_other s i j v h]

theorem Reg.succ_ne (i : Reg) : i + 1 ≠ i := by revert i; decide

/-- Everything a pair write does to the registers. -/
theorem State.reg_setPair (s : State) (i j : Reg) (v : Word) :
    (s.setPair i v).reg j = if j = i + 1 then hiByte v else if j = i then loByte v else s.reg j := by
  simp only [State.setPair, State.reg_setReg]

@[simp] theorem wordOfBytes_lo_hi (v : Word) : wordOfBytes (loByte v) (hiByte v) = v := by
  apply BitVec.eq_of_toNat_eq
  simp only [wordOfBytes, loByte, hiByte, BitVec.toNat_append, BitVec.extractLsb'_toNat, Nat.shiftRight_eq_div_pow]
  rw [← Nat.shiftLeft_add_eq_or_of_lt (Nat.mod_lt _ (by decide)), Nat.shiftLeft_eq]
  have := v.isLt
  omega

@[simp] theorem loByte_wordOfBytes (l h : Byte) : loByte (wordOfBytes l h) = l := by
  apply BitVec.eq_of_toNat_eq
  simp only [wordOfBytes, loByte, BitVec.toNat_append, BitVec.extractLsb'_toNat, Nat.shiftRight_eq_div_pow]
  rw [← Nat.shiftLeft_add_eq_or_of_lt l.isLt, Nat.shiftLeft_eq]
  have := l.isLt
  omega

@[simp] theorem hiByte_wordOfBytes (l h : Byte) : hiByte (wordOfBytes l h) = h := by
  apply BitVec.eq_of_toNat_eq
  simp only [wordOfBytes, hiByte, BitVec.toNat_append, BitVec.extractLsb'_toNat, Nat.shiftRight_eq_div_pow]
  rw [← Nat.shiftLeft_add_eq_or_of_lt l.isLt, Nat.shiftLeft_eq]
  have := l.isLt
  have := h.isLt
  omega

/-- A word's value from its bytes (R12). -/
theorem toNat_wordOfBytes (l h : Byte) : (wordOfBytes l h).toNat = h.toNat * 256 + l.toNat := by
  simp only [wordOfBytes, BitVec.toNat_append]
  rw [← Nat.shiftLeft_add_eq_or_of_lt l.isLt, Nat.shiftLeft_eq]

theorem toNat_loByte (v : Word) : (loByte v).toNat = v.toNat % 256 := by simp [loByte]

theorem toNat_hiByte (v : Word) : (hiByte v).toNat = v.toNat / 256 := by
  have := v.isLt
  simp only [hiByte, BitVec.extractLsb'_toNat, Nat.shiftRight_eq_div_pow]
  omega

@[simp] theorem State.pair_setPair_same (s : State) (i : Reg) (v : Word) : (s.setPair i v).pair i = v := by
  simp [State.pair, State.reg_setPair, (Reg.succ_ne i).symm]

/-! ### Flags (R31) -/

/-- Everything a bit write does. -/
theorem putBit_getLsbD (v : Byte) (b c : Fin 8) (x : Bool) :
    (putBit v b x).getLsbD c.val = if c = b then x else v.getLsbD c.val := by
  revert v b c x; decide

@[simp] theorem State.flag_setSreg (s : State) (v : Byte) (b : Flag) : (s.setSreg v).flag b = v.getLsbD b.val := rfl

@[simp] theorem State.flag_writeSreg (s : State) (v : Byte) (b : Flag) : (s.writeSreg v).flag b = v.getLsbD b.val := rfl

end Sys2Proof.Machine
end

