-- ==== Sys2Proof/Laws/Ops.lean ====
section
/-! SUPPORT. For each shared operation one lemma that says everything it can do; the proofs cite these and do not unfold the operation. -/

namespace Sys2Proof.Machine

/-! ### Stops -/

theorem bindRes_next_iff {α β : Type} {x : Res α} {f : α → Res β} {b : β} :
    bindRes x f = .next b ↔ ∃ a, x = .next a ∧ f a = .next b := by
  cases x <;> simp [bindRes]

@[simp] theorem bindRes_next {α β : Type} (a : α) (f : α → Res β) : bindRes (.next a) f = f a := rfl

@[simp] theorem bindRes_fault {α β : Type} (r : Fault) (f : α → Res β) : bindRes (.fault r) f = .fault r := rfl

@[simp] theorem bindRes_refused {α β : Type} (r : Refusal) (f : α → Res β) : bindRes (.refused r) f = .refused r := rfl

/-! ### Program counter (R28, R160) -/

theorem Config.toNat_wrapPc (c : Config) (t : Nat) (h : c.pcBits ≤ 22) : (c.wrapPc t).toNat = t % 2 ^ c.pcBits := by
  simp only [Config.wrapPc, BitVec.toNat_ofNat]
  refine Nat.mod_eq_of_lt ?_
  exact Nat.lt_of_lt_of_le (Nat.mod_lt _ (Nat.two_pow_pos _)) (Nat.pow_le_pow_right (by decide) h)

theorem Config.wrapPc_lt (c : Config) (t : Nat) : (c.wrapPc t).toNat < 2 ^ c.pcBits := by
  simp only [Config.wrapPc, BitVec.toNat_ofNat]
  exact Nat.lt_of_le_of_lt (Nat.mod_le _ _) (Nat.mod_lt _ (Nat.two_pow_pos _))

/-- An address that fits is what `wrapPc` makes of it. -/
theorem Config.wrapPc_toNat (c : Config) (a : PcWord) (h : a.toNat < 2 ^ c.pcBits) : c.wrapPc a.toNat = a := by
  simp [Config.wrapPc, Nat.mod_eq_of_lt h]

/-! ### Reading a location -/

/-- A read of an I/O location changes nothing but the environment's data. -/
theorem State.ioRead_env (s : State) (p : BitVec 6) :
    ∃ answers events draws, (s.ioRead p).2 = { s with ioAnswers := answers, events := events, draws := draws } := by
  unfold State.ioRead State.devRead State.draw State.emit
  split
  · exact ⟨_, _, _, rfl⟩
  · split <;> exact ⟨_, _, _, rfl⟩

/-- What a read of an I/O location gives and what it does to the environment. -/
theorem State.ioRead_effect (s : State) (p : BitVec 6) : IoReadEffect p (s.ioRead p).1 s (s.ioRead p).2 := by
  unfold IoReadEffect State.ioRead State.devRead
  cases h : s.coreIo? p with
  | some v => exact ⟨rfl, rfl, rfl, rfl, rfl⟩
  | none =>
    cases ha : s.ioAnswers with
    | nil => exact ⟨rfl, rfl, rfl, ha, rfl⟩
    | cons v rest => exact ⟨rfl, rfl, rfl, rfl, rfl⟩

/-- A data read changes nothing but the environment's data and the count of free values. -/
theorem State.memRead_env {s t : State} {a : Word} {v : Byte} (h : s.memRead a = .next (v, t)) :
    ∃ answers events draws, t = { s with ioAnswers := answers, events := events, draws := draws } := by
  unfold State.memRead at h
  split at h
  · cases h; exact ⟨_, _, _, rfl⟩
  · simp only [Host.Outcome.next.injEq] at h
    have := State.ioRead_env s (ioOfData a)
    rwa [h] at this
  · split at h <;> cases h <;> exact ⟨_, _, _, rfl⟩
  · cases h

/-- A data read answers exactly where the address is implemented, and gives what `MemReadEffect` says. -/
theorem State.memRead_effect {s t : State} {a : Word} {v : Byte} (h : s.memRead a = .next (v, t)) : MemReadEffect a v s t := by
  unfold State.memRead at h
  unfold MemReadEffect
  cases hr : dataRegion s.cfg a <;> simp only [hr] at h ⊢
  · cases h; exact ⟨rfl, rfl, rfl, rfl, rfl⟩
  · simp only [Host.Outcome.next.injEq] at h
    have := State.ioRead_effect s (ioOfData a)
    rwa [h] at this
  · cases hb : s.sramByte? a <;> simp only [hb] at h ⊢ <;> cases h <;> exact ⟨rfl, rfl, rfl, rfl, rfl⟩
  · cases h

theorem State.memRead_of_implemented {s : State} {a : Word} (h : dataRegion s.cfg a ≠ .unimplemented) :
    ∃ v t, s.memRead a = .next (v, t) := by
  unfold State.memRead
  split
  · exact ⟨_, _, rfl⟩
  · exact ⟨_, _, rfl⟩
  · split <;> exact ⟨_, _, rfl⟩
  · exact absurd ‹_› h

theorem State.memRead_of_unimplemented {s : State} {a : Word} (h : dataRegion s.cfg a = .unimplemented) :
    s.memRead a = .fault (.unimplementedData a.toNat) := by
  simp only [State.memRead, h]

/-- Where nothing is implemented, in the terms of the statements. -/
theorem dataRegion_unimplemented_iff {c : Config} {a : Word} : dataRegion c a = .unimplemented ↔ NoDataAt c a := by
  unfold dataRegion NoDataAt
  cases c.hasSp <;> split_ifs <;> simp_all <;> omega

/-! ### Writing a location -/

/-- A write of an I/O location writes one core register, or tells the environment. -/
theorem State.ioWrite_cases (s : State) (p : BitVec 6) (v : Byte) :
    (p = 0x3F#6 ∧ s.ioWrite p v = s.writeSreg v) ∨
    (p = 0x3E#6 ∧ s.cfg.hasSp = true ∧ s.ioWrite p v = { s with sp := wordOfBytes (loByte s.sp) v }) ∨
    (p = 0x3D#6 ∧ s.cfg.hasSp = true ∧ s.ioWrite p v = { s with sp := wordOfBytes v (hiByte s.sp) }) ∨
    (p = 0x3C#6 ∧ s.cfg.hasEind = true ∧ s.ioWrite p v = { s with eind := v }) ∨
    (p = 0x3B#6 ∧ s.cfg.hasRampz = true ∧ s.ioWrite p v = { s with rampz := v }) ∨
    (s.coreIo? p = none ∧ s.ioWrite p v = s.emit (.ioWrite p v)) := by
  unfold State.ioWrite State.coreIo?
  split_ifs <;> simp_all

/-- What a write of an I/O location does. -/
theorem State.ioWrite_effect (s : State) (p : BitVec 6) (v : Byte) : IoWriteEffect p v s (s.ioWrite p v) := by
  constructor <;>
  · unfold State.ioWrite
    try unfold State.coreIo?
    split_ifs <;> simp_all [State.writeSreg, State.emit, State.flag, State.progByte, flagI, BitVec.msb_eq_getLsbD_last]

/-- A write of an I/O location changes no register, no SRAM byte, no program counter, and SP as `spAfterIoWrite` says. -/
theorem State.ioWrite_frame (s : State) (p : BitVec 6) (v : Byte) :
    (s.ioWrite p v).regs = s.regs ∧ (s.ioWrite p v).sram = s.sram ∧ (s.ioWrite p v).pc = s.pc ∧
      (s.ioWrite p v).prog = s.prog ∧ (s.ioWrite p v).sp = spAfterIoWrite p v s := by
  unfold State.ioWrite spAfterIoWrite State.writeSreg State.emit
  split_ifs <;> simp_all

/-- A data write is one of three record updates. -/
theorem State.memWrite_cases {s t : State} {a : Word} {v : Byte} (h : s.memWrite a v = .next t) :
    (dataRegion s.cfg a = .register ∧ t = s.setReg (regOfData a) v) ∨
    (dataRegion s.cfg a = .io ∧ t = s.ioWrite (ioOfData a) v) ∨
    (dataRegion s.cfg a = .sram ∧ t = { s with sram := s.sram.write sramBlank a.toNat v }) := by
  unfold State.memWrite at h
  split at h <;> cases h
  · exact .inl ⟨‹_›, rfl⟩
  · exact .inr (.inl ⟨‹_›, rfl⟩)
  · exact .inr (.inr ⟨‹_›, rfl⟩)

theorem State.memWrite_of_implemented {s : State} {a : Word} (v : Byte) (h : dataRegion s.cfg a ≠ .unimplemented) :
    ∃ t, s.memWrite a v = .next t := by
  unfold State.memWrite
  split
  · exact ⟨_, rfl⟩
  · exact ⟨_, rfl⟩
  · exact ⟨_, rfl⟩
  · exact absurd ‹_› h

theorem State.memWrite_of_unimplemented {s : State} {a : Word} (v : Byte) (h : dataRegion s.cfg a = .unimplemented) :
    s.memWrite a v = .fault (.unimplementedData a.toNat) := by
  simp only [State.memWrite, h]

/-- The SRAM bytes after a write of one of them. -/
theorem State.sramByte_write (s : State) (a b : Word) (v : Byte) :
    ({ s with sram := s.sram.write sramBlank a.toNat v }).sramByte? b = if b = a then some v else s.sramByte? b := by
  simp only [State.sramByte?, Memory.read_write, BitVec.toNat_inj]

/-- What a data write does. -/
theorem State.memWrite_effect {s t : State} {a : Word} {v : Byte} (h : s.memWrite a v = .next t) :
    StoreEffect [] a v s t ∧ t.sp = spAfterStore a v s ∧ t.pc = s.pc := by
  unfold StoreEffect spAfterStore
  rcases State.memWrite_cases h with ⟨hr, rfl⟩ | ⟨hr, rfl⟩ | ⟨hr, rfl⟩ <;> rw [hr]
  · refine ⟨⟨State.reg_setReg_same .., ?_, rfl, rfl, fun _ => rfl, ⟨rfl, rfl, rfl, rfl⟩, rfl, rfl, rfl, rfl, rfl, fun _ => rfl⟩, by simp, rfl⟩
    intro i hi
    exact State.reg_setReg_other _ _ _ _ (by simpa using hi)
  · obtain ⟨h1, h2, h3, -, h5⟩ := State.ioWrite_frame s (ioOfData a) v
    refine ⟨⟨fun i _ => ?_, fun b => ?_, State.ioWrite_effect ..⟩, ?_, h3⟩
    · simp only [State.reg, h1]
    · simp only [State.sramByte?, h2]
    · simpa using h5
  · refine ⟨⟨?_, fun b hb => ?_, fun _ _ => rfl, rfl, rfl, ⟨rfl, rfl, rfl, rfl⟩, rfl, rfl, rfl, rfl, rfl, fun _ => rfl⟩, by simp, rfl⟩
    · rw [State.sramByte_write]; simp
    · rw [State.sramByte_write]; simp [hb]

/-- A data write keeps the SRAM's canonical form and range, and leaves program memory alone. -/
theorem State.memWrite_wf {s t : State} {a : Word} {v : Byte} (h : s.memWrite a v = .next t) :
    (s.sram.wf sramBlank = true → t.sram.wf sramBlank = true) ∧
    ((∀ c ∈ s.sram, 0x60 ≤ c.1 ∧ c.1 ≤ s.cfg.sramEnd) → ∀ c ∈ t.sram, 0x60 ≤ c.1 ∧ c.1 ≤ s.cfg.sramEnd) ∧
    t.prog = s.prog := by
  rcases State.memWrite_cases h with ⟨hr, rfl⟩ | ⟨hr, rfl⟩ | ⟨hr, rfl⟩
  · exact ⟨id, id, rfl⟩
  · obtain ⟨-, h2, -, h4, -⟩ := State.ioWrite_frame s (ioOfData a) v
    exact ⟨by rw [h2]; exact id, by rw [h2]; exact id, h4⟩
  · refine ⟨Memory.wf_write _ _, fun hs => ?_, rfl⟩
    have ha : 0x60 ≤ a.toNat ∧ a.toNat ≤ s.cfg.sramEnd := by
      unfold dataRegion at hr
      (split_ifs at hr; omega)
    have := Memory.all_write (p := fun c => decide (0x60 ≤ c.1 ∧ c.1 ≤ s.cfg.sramEnd)) sramBlank (m := s.sram) (a := a.toNat) (v := v)
      (by simpa using ha) (by simpa [List.all_eq_true] using hs)
    simpa [List.all_eq_true] using this

/-- The canonical form of the memories after reset. -/
theorem State.reset_wf : State.reset.sram.wf sramBlank = true ∧ State.reset.prog.wf progBlank = true := ⟨rfl, rfl⟩

/-! ### Program memory -/

/-- The program bytes after a write of a word. -/
theorem State.progByte_setProgWord (s : State) (a b : Nat) (w : Word) :
    (s.setProgWord a w).progByte b = if b = 2 * a + 1 then hiByte w else if b = 2 * a then loByte w else s.progByte b := by
  simp only [State.progByte, State.setProgWord, Memory.read_write]
  split_ifs <;> simp

/-- The word written reads back. -/
theorem State.progWord_setProgWord (s : State) (a : Nat) (w : Word) (h : a < s.cfg.flashWords) :
    (s.setProgWord a w).progWord? a = some w := by
  have h' : a < (s.setProgWord a w).cfg.flashWords := h
  simp only [State.progWord?, h', if_true, State.progByte_setProgWord]
  simp

/-- A write of a program word keeps the canonical form and the range. -/
theorem State.setProgWord_wf {s : State} {a : Nat} {w : Word} :
    (s.prog.wf progBlank = true → (s.setProgWord a w).prog.wf progBlank = true) ∧
    (a < s.cfg.flashWords → (∀ c ∈ s.prog, c.1 < 2 * s.cfg.flashWords) → ∀ c ∈ (s.setProgWord a w).prog, c.1 < 2 * s.cfg.flashWords) := by
  refine ⟨fun h => Memory.wf_write _ _ (Memory.wf_write _ _ h), fun ha hs => ?_⟩
  have h1 := Memory.all_write (p := fun c => decide (c.1 < 2 * s.cfg.flashWords)) progBlank (m := s.prog) (a := 2 * a) (v := loByte w)
    (by simp; omega) (by simpa [List.all_eq_true] using hs)
  have h2 := Memory.all_write (p := fun c => decide (c.1 < 2 * s.cfg.flashWords)) progBlank (a := 2 * a + 1) (v := hiByte w)
    (by simp; omega) h1
  simpa [List.all_eq_true, State.setProgWord] using h2

/-- LPM's and ELPM's read: the byte where the word is implemented, else the fault. -/
theorem State.progByteRead_eq (s : State) (b : Nat) :
    s.progByteRead b = if b / 2 < s.cfg.flashWords then .next (s.progByte b) else .fault (.unimplementedProgram (b / 2)) := by
  unfold State.progByteRead State.progWord?
  by_cases h : b / 2 < s.cfg.flashWords
  · simp only [if_pos h, loByte_wordOfBytes, hiByte_wordOfBytes]
    rcases Nat.mod_two_eq_zero_or_one b with hb | hb
    · rw [if_pos hb, show 2 * (b / 2) = b by omega]
    · rw [if_neg (by omega), show 2 * (b / 2) + 1 = b by omega]
  · simp only [if_neg h]

/-! ### Stack -/

/-- A push that answers wrote its byte at SP and left SP one less. -/
theorem State.push8_next {s t : State} {v : Byte} (h : s.push8 v = .next t) :
    ∃ u, s.memWrite s.sp v = .next u ∧ t = { u with sp := s.sp - 1#16 } := by
  obtain ⟨u, hu, ht⟩ := bindRes_next_iff.mp h
  cases ht
  exact ⟨u, hu, rfl⟩

theorem State.push8_of_implemented {s : State} (v : Byte) (h : dataRegion s.cfg s.sp ≠ .unimplemented) :
    ∃ t, s.push8 v = .next t := by
  obtain ⟨u, hu⟩ := State.memWrite_of_implemented v h
  exact ⟨_, by rw [State.push8, hu]; rfl⟩

/-- A pop that answers changed SP and the environment's data, nothing else. -/
theorem State.pop8_next {s t : State} {v : Byte} (h : s.pop8 = .next (v, t)) :
    MemReadEffect (s.sp + 1#16) v { s with sp := s.sp + 1#16 } t ∧
    ∃ answers events draws, t = { s with sp := s.sp + 1#16, ioAnswers := answers, events := events, draws := draws } :=
  ⟨State.memRead_effect h, State.memRead_env h⟩

theorem State.pop8_of_implemented {s : State} (h : dataRegion s.cfg (s.sp + 1#16) ≠ .unimplemented) :
    ∃ v t, s.pop8 = .next (v, t) := State.memRead_of_implemented (s := { s with sp := s.sp + 1#16 }) h

theorem State.push8_of_unimplemented {s : State} (v : Byte) (h : dataRegion s.cfg s.sp = .unimplemented) :
    s.push8 v = .fault (.unimplementedData s.sp.toNat) := by
  rw [State.push8, State.memWrite_of_unimplemented v h]; rfl

theorem State.pop8_of_unimplemented {s : State} (h : dataRegion s.cfg (s.sp + 1#16) = .unimplemented) :
    s.pop8 = .fault (.unimplementedData (s.sp + 1#16).toNat) :=
  State.memRead_of_unimplemented (s := { s with sp := s.sp + 1#16 }) h

/-- A pushed return address: on a core without SP one address more, else two or three pushes. -/
theorem State.pushPc_next {s t : State} {a : PcWord} (h : s.pushPc a = .next t) :
    (s.cfg.hasSp = false ∧ s.hwStack.length < s.cfg.hwStackDepth ∧ t = { s with hwStack := a :: s.hwStack }) ∨
    (s.cfg.hasSp = true ∧ ∃ u v, s.push8 (pcByte a 0) = .next u ∧ u.push8 (pcByte a 1) = .next v ∧
      if s.cfg.retBytes = 3 then v.push8 (pcByte a 2) = .next t else t = v) := by
  unfold State.pushPc at h
  by_cases hs : s.cfg.hasSp = true
  · rw [if_pos hs] at h
    obtain ⟨u, hu, h⟩ := bindRes_next_iff.mp h
    obtain ⟨v, hv, h⟩ := bindRes_next_iff.mp h
    refine .inr ⟨hs, u, v, hu, hv, ?_⟩
    split_ifs at h ⊢ with hb
    · exact h
    · cases h; rfl
  · rw [if_neg hs] at h
    split_ifs at h
    cases h
    exact .inl ⟨by simpa using hs, by omega, rfl⟩

/-- A popped return address changes SP, the hardware stack or the environment's data, nothing else. -/
theorem State.popPc_frame {s t : State} {a : PcWord} (h : s.popPc = .next (a, t)) :
    (s.cfg.hasSp = false ∧ s.hwStack = a :: t.hwStack ∧ t = { s with hwStack := t.hwStack }) ∨
    (s.cfg.hasSp = true ∧ (∃ n, a = s.cfg.wrapPc n) ∧
      ∃ answers events draws, t = { s with sp := t.sp, ioAnswers := answers, events := events, draws := draws }) := by
  unfold State.popPc at h
  split_ifs at h with hs hb
  · obtain ⟨⟨b2, u⟩, hu, h⟩ := bindRes_next_iff.mp h
    obtain ⟨⟨b1, v⟩, hv, h⟩ := bindRes_next_iff.mp h
    obtain ⟨⟨b0, w⟩, hw, h⟩ := bindRes_next_iff.mp h
    obtain ⟨-, _, _, _, rfl⟩ := State.pop8_next hu
    obtain ⟨-, _, _, _, rfl⟩ := State.pop8_next hv
    obtain ⟨-, _, _, _, rfl⟩ := State.pop8_next hw
    cases h
    exact .inr ⟨hs, ⟨_, rfl⟩, _, _, _, rfl⟩
  · obtain ⟨⟨b2, u⟩, hu, h⟩ := bindRes_next_iff.mp h
    obtain ⟨⟨b1, v⟩, hv, h⟩ := bindRes_next_iff.mp h
    obtain ⟨⟨b0, w⟩, hw, h⟩ := bindRes_next_iff.mp h
    cases hu
    obtain ⟨-, _, _, _, rfl⟩ := State.pop8_next hv
    obtain ⟨-, _, _, _, rfl⟩ := State.pop8_next hw
    cases h
    exact .inr ⟨hs, ⟨_, rfl⟩, _, _, _, rfl⟩
  · split at h <;> cases h
    rename_i rest hr
    exact .inl ⟨by simpa using hs, hr, rfl⟩

/-! ### Skips -/

/-- A skip changes only the program counter: by one, or by one and the length of what is skipped. -/
theorem State.skipIf_next {s t : State} {c : Bool} (h : s.skipIf c = .next t) :
    (c = false ∧ t = s.advance 1) ∨ (c = true ∧ ∃ n, s.skipLen (s.pc.toNat + 1) = .next n ∧ t = s.advance (1 + n)) := by
  unfold State.skipIf at h
  split_ifs at h with hc
  · obtain ⟨n, hn, h⟩ := bindRes_next_iff.mp h
    cases h
    exact .inr ⟨hc, n, hn, rfl⟩
  · cases h
    exact .inl ⟨by simpa using hc, rfl⟩

/-- A skip over a word outside program memory stops there. -/
theorem State.skipLen_out {s : State} {a : Nat} (h : s.cfg.flashWords ≤ a % 2 ^ s.cfg.pcBits) :
    s.skipLen a = .fault (.fetchOutOfRange (a % 2 ^ s.cfg.pcBits)) := by
  simp only [State.skipLen, State.progWord?, if_neg (Nat.not_lt.mpr h)]

/-- A skip over a two-word opcode that the core lacks is refused. -/
theorem State.skipLen_unimplemented {s : State} {a : Nat} {w : Word} {i : Instr} (hw : s.progWord? (a % 2 ^ s.cfg.pcBits) = some w)
    (hl : isLongWord w = true) (hi : decodeWords w 0#16 = some i) (hn : i.implementedOn s.cfg.core = false) :
    s.skipLen a = .refused .skipOverUnimplemented := by
  simp [State.skipLen, hw, hl, hi, hn]

/-- A skip length is one or two. -/
theorem State.skipLen_next {s : State} {a n : Nat} (h : s.skipLen a = .next n) : n = 1 ∨ n = 2 := by
  unfold State.skipLen at h
  repeat' split at h
  all_goals first | (cases h; done) | (cases h; simp)

/-! ### Events and the step -/

/-- An interrupt entry is a push of the program counter and then one record update. -/
theorem State.enterIrq_next {s t : State} {n : Nat} (h : s.enterIrq n = .next t) :
    ∃ u, s.pushPc s.pc = .next u ∧
      t = { u with sreg := putBit u.sreg flagI false, pc := s.cfg.wrapPc (n * s.cfg.vectorStride), runState := .running,
                   irqShadow := false, events := .irqTaken n :: u.events } := by
  obtain ⟨u, hu, h⟩ := bindRes_next_iff.mp h
  cases h
  exact ⟨u, hu, rfl⟩

/-- RETI is a pop of the program counter and then one record update. -/
theorem State.returnFromIrq_next {s t : State} (h : s.returnFromIrq = .next t) :
    ∃ a u, s.popPc = .next (a, u) ∧ t = { u with pc := a, sreg := putBit u.sreg flagI true, irqShadow := true } := by
  obtain ⟨⟨a, u⟩, hu, h⟩ := bindRes_next_iff.mp h
  cases h
  exact ⟨a, u, hu, rfl⟩

/-! What a later reset leaves (R340). -/

@[simp] theorem State.takeReset_cfg (s : State) : s.takeReset.cfg = s.cfg := by dsimp only [State.takeReset, State.emit]

@[simp] theorem State.takeReset_prog (s : State) : s.takeReset.prog = s.prog := by dsimp only [State.takeReset, State.emit]

@[simp] theorem State.takeReset_boundaries (s : State) : s.takeReset.boundaries = s.boundaries := by dsimp only [State.takeReset, State.emit]

@[simp] theorem State.takeReset_ioAnswers (s : State) : s.takeReset.ioAnswers = s.ioAnswers := by dsimp only [State.takeReset, State.emit]

@[simp] theorem State.takeReset_events (s : State) : s.takeReset.events = .reset :: s.events := by
  dsimp only [State.takeReset, State.emit]

@[simp] theorem State.takeReset_draws (s : State) : s.takeReset.draws = s.draws + 34 := by
  dsimp only [State.takeReset, State.emit]

@[simp] theorem State.takeReset_reg (s : State) (i : Reg) : s.takeReset.reg i = Config.freeByte (s.draws + i.val) := by
  simp [State.takeReset, State.emit, State.reg]

@[simp] theorem State.takeReset_sp (s : State) :
    s.takeReset.sp = wordOfBytes (Config.freeByte (s.draws + 32)) (Config.freeByte (s.draws + 33)) := by
  dsimp only [State.takeReset, State.emit]

/-- What decoding on a core gives has an encoding there. -/
theorem decodeOn_next {core : CoreKind} {w w1 : Word} {i : Instr} (h : decodeOn core w w1 = .next i) :
    decodeWords w w1 = some i ∧ i.implementedOn core = true := by
  unfold decodeOn at h
  split at h
  · split at h <;> cases h
    exact ⟨‹_›, ‹_›⟩
  · cases h

/-- What a fetch answers is decoded from the words at the program counter and implemented. -/
theorem State.fetch_next {s : State} {i : Instr} (h : s.fetch = .next i) :
    ∃ w w1, s.progWord? s.pc.toNat = some w ∧ decodeWords w w1 = some i ∧ i.implementedOn s.cfg.core = true := by
  unfold State.fetch at h
  split at h
  · cases h
  · rename_i w hw
    split at h
    · split at h
      · cases h
      · exact ⟨_, _, hw, decodeOn_next h⟩
    · exact ⟨_, _, hw, decodeOn_next h⟩

/-- The four things a step can do. -/
theorem step_next {s t : State} (h : step s = .next t) :
    (s.nextAction = .reset ∧ t = s.popBoundary.takeReset) ∨ (∃ n, s.nextAction = .irq n ∧ s.popBoundary.enterIrq n = .next t) ∨
    (s.nextAction = .idle ∧ t = s.popBoundary) ∨
    (s.nextAction = .run ∧ ∃ i, s.fetch = .next i ∧ exec i s.beginInstr = .next t) := by
  unfold step at h
  split at h <;> rename_i ha
  · cases h; exact .inl ⟨ha, rfl⟩
  · exact .inr (.inl ⟨_, ha, h⟩)
  · cases h; exact .inr (.inr (.inl ⟨ha, rfl⟩))
  · obtain ⟨i, hi, h⟩ := bindRes_next_iff.mp h
    exact .inr (.inr (.inr ⟨ha, i, hi, h⟩))

end Sys2Proof.Machine
end

