-- ==== Sys2Proof/Laws/Operands.lean ====
section
/-! SUPPORT. The flag computations bit by bit, and for each way an instruction ends (Operands.lean) what it writes and its frame. -/

namespace Sys2Proof.Machine

/-! ### SREG bit by bit -/

theorem sregHSVNZC_bit (sreg : Byte) (o : AluOut) (b : Flag) :
    (sregHSVNZC sreg o).getLsbD b.val = if b = flagC then o.c else if b = flagZ then o.z else if b = flagN then o.n else
      if b = flagV then o.v else if b = flagS then o.s else if b = flagH then o.h else sreg.getLsbD b.val := by
  simp only [sregHSVNZC, putBit_getLsbD]

theorem sregSVNZC_bit (sreg : Byte) (v n z c : Bool) (b : Flag) :
    (sregSVNZC sreg v n z c).getLsbD b.val = if b = flagC then c else if b = flagZ then z else if b = flagN then n else
      if b = flagV then v else if b = flagS then (n ^^ v) else sreg.getLsbD b.val := by
  simp only [sregSVNZC, putBit_getLsbD]

theorem sregSVNZ_bit (sreg : Byte) (v n z : Bool) (b : Flag) :
    (sregSVNZ sreg v n z).getLsbD b.val = if b = flagZ then z else if b = flagN then n else
      if b = flagV then v else if b = flagS then (n ^^ v) else sreg.getLsbD b.val := by
  simp only [sregSVNZ, putBit_getLsbD]

theorem sregZC_bit (sreg : Byte) (z c : Bool) (b : Flag) :
    (sregZC sreg z c).getLsbD b.val = if b = flagC then c else if b = flagZ then z else sreg.getLsbD b.val := by
  simp only [sregZC, putBit_getLsbD]

/-! ### Frames -/

theorem SameRest.refl (s : State) : SameRest s s := ⟨rfl, rfl, rfl, rfl, rfl, fun _ => rfl⟩

theorem SameEnv.refl (s : State) : SameEnv s s := ⟨rfl, rfl, rfl, rfl⟩

/-- A frame depends on the named fields only. -/
theorem Frame.of_fields {regs : List Reg} {flags : List Flag} {s t : State} (hr : SameRegs regs s t) (hf : SameFlags flags s t)
    (h1 : t.sp = s.sp) (h2 : t.irqShadow = s.irqShadow) (h3 : t.sram = s.sram) (h4 : t.boundaries = s.boundaries)
    (h5 : t.ioAnswers = s.ioAnswers) (h6 : t.events = s.events) (h7 : t.draws = s.draws) (h8 : t.cfg = s.cfg)
    (h9 : t.rampz = s.rampz) (h10 : t.eind = s.eind) (h11 : t.hwStack = s.hwStack) (h12 : t.runState = s.runState)
    (h13 : t.prog = s.prog) : Frame regs flags s t :=
  ⟨hr, hf, h1, h2, fun a => by simp only [State.sramByte?, h3], ⟨h4, h5, h6, h7⟩,
    ⟨h8, h9, h10, h11, h12, fun b => by simp only [State.progByte, h13]⟩⟩

theorem State.setReg_sameRegs (s : State) (d : Reg) (v : Byte) : SameRegs [d] s (s.setReg d v) :=
  fun _ hi => State.reg_setReg_other _ _ _ _ (by simpa using hi)

theorem State.setPair_sameRegs (s : State) (d : Reg) (v : Word) : SameRegs [d, d + 1] s (s.setPair d v) := by
  intro i hi
  simp only [List.mem_cons, List.not_mem_nil, or_false, not_or] at hi
  rw [State.reg_setPair, if_neg hi.2, if_neg hi.1]

/-! ### The ways an instruction ends -/

/-- A result and a computed SREG: the register, the next instruction, and the frame, given which flags SREG leaves. -/
theorem State.putResult_frame (s : State) (d : Reg) (r sreg : Byte) {flags : List Flag}
    (h : ∀ b : Flag, b ∉ flags → sreg.getLsbD b.val = s.flag b) :
    (s.putResult d r sreg).reg d = r ∧ (s.putResult d r sreg).sreg = sreg ∧ GoesOn 1 s (s.putResult d r sreg) ∧
      Frame [d] flags s (s.putResult d r sreg) :=
  ⟨State.reg_setReg_same s d r, rfl, rfl, Frame.of_fields (State.setReg_sameRegs s d r) h rfl rfl rfl rfl rfl rfl rfl rfl rfl rfl rfl rfl rfl⟩

/-- A 16-bit result and a computed SREG. -/
theorem State.putPair_frame (s : State) (d : Reg) (v : Word) (sreg : Byte) {flags : List Flag}
    (h : ∀ b : Flag, b ∉ flags → sreg.getLsbD b.val = s.flag b) :
    (s.putPair d v sreg).pair d = v ∧ (s.putPair d v sreg).sreg = sreg ∧ GoesOn 1 s (s.putPair d v sreg) ∧
      Frame [d, d + 1] flags s (s.putPair d v sreg) :=
  ⟨State.pair_setPair_same s d v, rfl, rfl,
    Frame.of_fields (State.setPair_sameRegs s d v) h rfl rfl rfl rfl rfl rfl rfl rfl rfl rfl rfl rfl rfl⟩

/-- H, S, V, N, Z, C and a result. -/
theorem State.putAlu_frame (s : State) (d : Reg) (o : AluOut) :
    (s.putAlu d o).reg d = o.r ∧ (s.putAlu d o).sreg = sregHSVNZC s.sreg o ∧ GoesOn 1 s (s.putAlu d o) ∧
      Frame [d] [flagH, flagS, flagV, flagN, flagZ, flagC] s (s.putAlu d o) := by
  refine State.putResult_frame s d o.r (sregHSVNZC s.sreg o) fun b hb => ?_
  rw [sregHSVNZC_bit]
  simp only [List.mem_cons, List.not_mem_nil, or_false, not_or] at hb
  simp only [hb, if_false, State.flag]

/-- H, S, V, N, Z, C of an operation that `putAlu` wrote. -/
theorem State.putAlu_flags (s : State) (d : Reg) (o : AluOut) :
    (s.putAlu d o).flag flagH = o.h ∧ (s.putAlu d o).flag flagS = o.s ∧ (s.putAlu d o).flag flagV = o.v ∧
      (s.putAlu d o).flag flagN = o.n ∧ (s.putAlu d o).flag flagZ = o.z ∧ (s.putAlu d o).flag flagC = o.c := by
  have h : ∀ b : Flag, (s.putAlu d o).flag b = (sregHSVNZC s.sreg o).getLsbD b.val := fun _ => rfl
  simp only [h, sregHSVNZC_bit]
  simp [flagH, flagS, flagV, flagN, flagZ, flagC]

/-- H, S, V, N, Z, C without a result. -/
theorem State.putFlags_frame (s : State) (o : AluOut) :
    (s.putFlags o).sreg = sregHSVNZC s.sreg o ∧ GoesOn 1 s (s.putFlags o) ∧
      Frame [] [flagH, flagS, flagV, flagN, flagZ, flagC] s (s.putFlags o) := by
  refine ⟨rfl, rfl, Frame.of_fields (fun _ _ => rfl) (fun b hb => ?_) rfl rfl rfl rfl rfl rfl rfl rfl rfl rfl rfl rfl rfl⟩
  show (sregHSVNZC s.sreg o).getLsbD b.val = _
  rw [sregHSVNZC_bit]
  simp only [List.mem_cons, List.not_mem_nil, or_false, not_or] at hb
  simp only [hb, if_false, State.flag]

/-- H, S, V, N, Z, C of an operation that `putFlags` wrote. -/
theorem State.putFlags_flags (s : State) (o : AluOut) :
    (s.putFlags o).flag flagH = o.h ∧ (s.putFlags o).flag flagS = o.s ∧ (s.putFlags o).flag flagV = o.v ∧
      (s.putFlags o).flag flagN = o.n ∧ (s.putFlags o).flag flagZ = o.z ∧ (s.putFlags o).flag flagC = o.c :=
  State.putAlu_flags s 0 o

/-- A register and nothing else. -/
theorem State.setReg_advance_frame (s : State) (d : Reg) (v : Byte) (n : Nat) :
    ((s.setReg d v).advance n).reg d = v ∧ GoesOn n s ((s.setReg d v).advance n) ∧ Frame [d] [] s ((s.setReg d v).advance n) :=
  ⟨State.reg_setReg_same s d v, rfl,
    Frame.of_fields (State.setReg_sameRegs s d v) (fun _ _ => rfl) rfl rfl rfl rfl rfl rfl rfl rfl rfl rfl rfl rfl rfl⟩

/-- The program counter and nothing else. -/
theorem State.setPc_frame (s : State) (n : Nat) : (s.setPc n).pc = s.cfg.wrapPc n ∧ Frame [] [] s (s.setPc n) :=
  ⟨rfl, Frame.of_fields (fun _ _ => rfl) (fun _ _ => rfl) rfl rfl rfl rfl rfl rfl rfl rfl rfl rfl rfl rfl rfl⟩

/-! ### Loads and stores -/

/-- A load that answers read its address, wrote its register and went on. -/
theorem State.loadFrom_next {s t : State} {d : Reg} {a : Word} {n : Nat} (h : s.loadFrom d a n = .next t) :
    ∃ v u, s.memRead a = .next (v, u) ∧ t = (u.setReg d v).advance n := by
  obtain ⟨⟨v, u⟩, hu, h⟩ := bindRes_next_iff.mp h
  cases h
  exact ⟨v, u, hu, rfl⟩

/-- A store that answers wrote its address and went on. -/
theorem State.storeTo_next {s t : State} {r : Reg} {a : Word} {n : Nat} (h : s.storeTo a r n = .next t) :
    ∃ u, s.memWrite a (s.reg r) = .next u ∧ t = u.advance n := by
  obtain ⟨u, hu, h⟩ := bindRes_next_iff.mp h
  cases h
  exact ⟨u, hu, rfl⟩

/-- A guarded form that answers had no conflict between its pointer and its data register or address. -/
theorem guardPtr_next {p : Ptr} {r : Reg} {a : Word} {f : Res State} {t : State} (h : guardPtr p r a f = .next t) :
    p.has r = false ∧ p.owns a = false ∧ f = .next t := by
  unfold guardPtr at h
  split_ifs at h with h1 h2
  exact ⟨by simpa using h1, by simpa using h2, h⟩

/-- Without a conflict a guarded form is the form. -/
theorem guardPtr_ok {p : Ptr} {r : Reg} {a : Word} {f : Res State} (h1 : p.has r = false) (h2 : p.owns a = false) :
    guardPtr p r a f = f := by
  simp [guardPtr, h1, h2]

end Sys2Proof.Machine
end

