-- ==== Sys2Proof/Laws/PerInstr.lean ====
section
/-! SUPPORT. A family of statements made per instruction: how many words an instruction encodes to (R92), and that an alias row's
expansion is canonical, as long as the row and encodable where the row is (R105). -/

namespace Sys2Proof.Laws

/-- The encoding of `i` has as many words as `i.len` says, and its expansion is canonical, equally long and encodable if `i` is. -/
def EncodeLength.Statement (i : Instr) : Prop :=
  (encode i).length = i.len ∧ i.canonical.canonical = i.canonical ∧ i.canonical.len = i.len ∧
    (i.wellFormed = true → i.canonical.wellFormed = true)

theorem EncodeLength.add (d r : Reg) : EncodeLength.Statement (.add d r) :=
  ⟨rfl, rfl, rfl, fun h => h⟩

theorem EncodeLength.adc (d r : Reg) : EncodeLength.Statement (.adc d r) :=
  ⟨rfl, rfl, rfl, fun h => h⟩

theorem EncodeLength.sub (d r : Reg) : EncodeLength.Statement (.sub d r) :=
  ⟨rfl, rfl, rfl, fun h => h⟩

theorem EncodeLength.subi (d : Reg) (k : Byte) : EncodeLength.Statement (.subi d k) :=
  ⟨rfl, rfl, rfl, fun h => h⟩

theorem EncodeLength.sbc (d r : Reg) : EncodeLength.Statement (.sbc d r) :=
  ⟨rfl, rfl, rfl, fun h => h⟩

theorem EncodeLength.sbci (d : Reg) (k : Byte) : EncodeLength.Statement (.sbci d k) :=
  ⟨rfl, rfl, rfl, fun h => h⟩

theorem EncodeLength.and (d r : Reg) : EncodeLength.Statement (.and d r) :=
  ⟨rfl, rfl, rfl, fun h => h⟩

theorem EncodeLength.andi (d : Reg) (k : Byte) : EncodeLength.Statement (.andi d k) :=
  ⟨rfl, rfl, rfl, fun h => h⟩

theorem EncodeLength.or (d r : Reg) : EncodeLength.Statement (.or d r) :=
  ⟨rfl, rfl, rfl, fun h => h⟩

theorem EncodeLength.ori (d : Reg) (k : Byte) : EncodeLength.Statement (.ori d k) :=
  ⟨rfl, rfl, rfl, fun h => h⟩

theorem EncodeLength.eor (d r : Reg) : EncodeLength.Statement (.eor d r) :=
  ⟨rfl, rfl, rfl, fun h => h⟩

theorem EncodeLength.com (d : Reg) : EncodeLength.Statement (.com d) :=
  ⟨rfl, rfl, rfl, fun h => h⟩

theorem EncodeLength.neg (d : Reg) : EncodeLength.Statement (.neg d) :=
  ⟨rfl, rfl, rfl, fun h => h⟩

theorem EncodeLength.sbr (d : Reg) (k : Byte) : EncodeLength.Statement (.sbr d k) :=
  ⟨rfl, rfl, rfl, fun h => h⟩

theorem EncodeLength.cbr (d : Reg) (k : Byte) : EncodeLength.Statement (.cbr d k) :=
  ⟨rfl, rfl, rfl, fun h => h⟩

theorem EncodeLength.inc (d : Reg) : EncodeLength.Statement (.inc d) :=
  ⟨rfl, rfl, rfl, fun h => h⟩

theorem EncodeLength.dec (d : Reg) : EncodeLength.Statement (.dec d) :=
  ⟨rfl, rfl, rfl, fun h => h⟩

theorem EncodeLength.tst (d : Reg) : EncodeLength.Statement (.tst d) :=
  ⟨rfl, rfl, rfl, fun h => h⟩

theorem EncodeLength.clr (d : Reg) : EncodeLength.Statement (.clr d) :=
  ⟨rfl, rfl, rfl, fun h => h⟩

theorem EncodeLength.ser (d : Reg) : EncodeLength.Statement (.ser d) :=
  ⟨rfl, rfl, rfl, fun h => h⟩

theorem EncodeLength.rjmp (k : BitVec 12) : EncodeLength.Statement (.rjmp k) :=
  ⟨rfl, rfl, rfl, fun h => h⟩

theorem EncodeLength.rcall (k : BitVec 12) : EncodeLength.Statement (.rcall k) :=
  ⟨rfl, rfl, rfl, fun h => h⟩

theorem EncodeLength.ret : EncodeLength.Statement (.ret) :=
  ⟨rfl, rfl, rfl, fun h => h⟩

theorem EncodeLength.reti : EncodeLength.Statement (.reti) :=
  ⟨rfl, rfl, rfl, fun h => h⟩

theorem EncodeLength.cpse (d r : Reg) : EncodeLength.Statement (.cpse d r) :=
  ⟨rfl, rfl, rfl, fun h => h⟩

theorem EncodeLength.cp (d r : Reg) : EncodeLength.Statement (.cp d r) :=
  ⟨rfl, rfl, rfl, fun h => h⟩

theorem EncodeLength.cpc (d r : Reg) : EncodeLength.Statement (.cpc d r) :=
  ⟨rfl, rfl, rfl, fun h => h⟩

theorem EncodeLength.cpi (d : Reg) (k : Byte) : EncodeLength.Statement (.cpi d k) :=
  ⟨rfl, rfl, rfl, fun h => h⟩

theorem EncodeLength.sbrc (r : Reg) (b : Fin 8) : EncodeLength.Statement (.sbrc r b) :=
  ⟨rfl, rfl, rfl, fun h => h⟩

theorem EncodeLength.sbrs (r : Reg) (b : Fin 8) : EncodeLength.Statement (.sbrs r b) :=
  ⟨rfl, rfl, rfl, fun h => h⟩

theorem EncodeLength.sbic (p : BitVec 5) (b : Fin 8) : EncodeLength.Statement (.sbic p b) :=
  ⟨rfl, rfl, rfl, fun h => h⟩

theorem EncodeLength.sbis (p : BitVec 5) (b : Fin 8) : EncodeLength.Statement (.sbis p b) :=
  ⟨rfl, rfl, rfl, fun h => h⟩

theorem EncodeLength.brbs (b : Fin 8) (k : BitVec 7) : EncodeLength.Statement (.brbs b k) :=
  ⟨rfl, rfl, rfl, fun h => h⟩

theorem EncodeLength.brbc (b : Fin 8) (k : BitVec 7) : EncodeLength.Statement (.brbc b k) :=
  ⟨rfl, rfl, rfl, fun h => h⟩

theorem EncodeLength.breq (k : BitVec 7) : EncodeLength.Statement (.breq k) :=
  ⟨rfl, rfl, rfl, fun h => h⟩

theorem EncodeLength.brne (k : BitVec 7) : EncodeLength.Statement (.brne k) :=
  ⟨rfl, rfl, rfl, fun h => h⟩

theorem EncodeLength.brcs (k : BitVec 7) : EncodeLength.Statement (.brcs k) :=
  ⟨rfl, rfl, rfl, fun h => h⟩

theorem EncodeLength.brcc (k : BitVec 7) : EncodeLength.Statement (.brcc k) :=
  ⟨rfl, rfl, rfl, fun h => h⟩

theorem EncodeLength.brsh (k : BitVec 7) : EncodeLength.Statement (.brsh k) :=
  ⟨rfl, rfl, rfl, fun h => h⟩

theorem EncodeLength.brlo (k : BitVec 7) : EncodeLength.Statement (.brlo k) :=
  ⟨rfl, rfl, rfl, fun h => h⟩

theorem EncodeLength.brmi (k : BitVec 7) : EncodeLength.Statement (.brmi k) :=
  ⟨rfl, rfl, rfl, fun h => h⟩

theorem EncodeLength.brpl (k : BitVec 7) : EncodeLength.Statement (.brpl k) :=
  ⟨rfl, rfl, rfl, fun h => h⟩

theorem EncodeLength.brge (k : BitVec 7) : EncodeLength.Statement (.brge k) :=
  ⟨rfl, rfl, rfl, fun h => h⟩

theorem EncodeLength.brlt (k : BitVec 7) : EncodeLength.Statement (.brlt k) :=
  ⟨rfl, rfl, rfl, fun h => h⟩

theorem EncodeLength.brhs (k : BitVec 7) : EncodeLength.Statement (.brhs k) :=
  ⟨rfl, rfl, rfl, fun h => h⟩

theorem EncodeLength.brhc (k : BitVec 7) : EncodeLength.Statement (.brhc k) :=
  ⟨rfl, rfl, rfl, fun h => h⟩

theorem EncodeLength.brts (k : BitVec 7) : EncodeLength.Statement (.brts k) :=
  ⟨rfl, rfl, rfl, fun h => h⟩

theorem EncodeLength.brtc (k : BitVec 7) : EncodeLength.Statement (.brtc k) :=
  ⟨rfl, rfl, rfl, fun h => h⟩

theorem EncodeLength.brvs (k : BitVec 7) : EncodeLength.Statement (.brvs k) :=
  ⟨rfl, rfl, rfl, fun h => h⟩

theorem EncodeLength.brvc (k : BitVec 7) : EncodeLength.Statement (.brvc k) :=
  ⟨rfl, rfl, rfl, fun h => h⟩

theorem EncodeLength.brie (k : BitVec 7) : EncodeLength.Statement (.brie k) :=
  ⟨rfl, rfl, rfl, fun h => h⟩

theorem EncodeLength.brid (k : BitVec 7) : EncodeLength.Statement (.brid k) :=
  ⟨rfl, rfl, rfl, fun h => h⟩

theorem EncodeLength.mov (d r : Reg) : EncodeLength.Statement (.mov d r) :=
  ⟨rfl, rfl, rfl, fun h => h⟩

theorem EncodeLength.ldi (d : Reg) (k : Byte) : EncodeLength.Statement (.ldi d k) :=
  ⟨rfl, rfl, rfl, fun h => h⟩

theorem EncodeLength.ldZ (d : Reg) : EncodeLength.Statement (.ldZ d) :=
  ⟨rfl, rfl, rfl, fun h => h⟩

theorem EncodeLength.stZ (r : Reg) : EncodeLength.Statement (.stZ r) :=
  ⟨rfl, rfl, rfl, fun h => h⟩

theorem EncodeLength.inIo (d : Reg) (p : BitVec 6) : EncodeLength.Statement (.inIo d p) :=
  ⟨rfl, rfl, rfl, fun h => h⟩

theorem EncodeLength.outIo (p : BitVec 6) (r : Reg) : EncodeLength.Statement (.outIo p r) :=
  ⟨rfl, rfl, rfl, fun h => h⟩

theorem EncodeLength.sbi (p : BitVec 5) (b : Fin 8) : EncodeLength.Statement (.sbi p b) :=
  ⟨rfl, rfl, rfl, fun h => h⟩

theorem EncodeLength.cbi (p : BitVec 5) (b : Fin 8) : EncodeLength.Statement (.cbi p b) :=
  ⟨rfl, rfl, rfl, fun h => h⟩

theorem EncodeLength.lsl (d : Reg) : EncodeLength.Statement (.lsl d) :=
  ⟨rfl, rfl, rfl, fun h => h⟩

theorem EncodeLength.lsr (d : Reg) : EncodeLength.Statement (.lsr d) :=
  ⟨rfl, rfl, rfl, fun h => h⟩

theorem EncodeLength.rol (d : Reg) : EncodeLength.Statement (.rol d) :=
  ⟨rfl, rfl, rfl, fun h => h⟩

theorem EncodeLength.ror (d : Reg) : EncodeLength.Statement (.ror d) :=
  ⟨rfl, rfl, rfl, fun h => h⟩

theorem EncodeLength.asr (d : Reg) : EncodeLength.Statement (.asr d) :=
  ⟨rfl, rfl, rfl, fun h => h⟩

theorem EncodeLength.swap (d : Reg) : EncodeLength.Statement (.swap d) :=
  ⟨rfl, rfl, rfl, fun h => h⟩

theorem EncodeLength.bset (b : Fin 8) : EncodeLength.Statement (.bset b) :=
  ⟨rfl, rfl, rfl, fun h => h⟩

theorem EncodeLength.bclr (b : Fin 8) : EncodeLength.Statement (.bclr b) :=
  ⟨rfl, rfl, rfl, fun h => h⟩

theorem EncodeLength.bst (r : Reg) (b : Fin 8) : EncodeLength.Statement (.bst r b) :=
  ⟨rfl, rfl, rfl, fun h => h⟩

theorem EncodeLength.bld (d : Reg) (b : Fin 8) : EncodeLength.Statement (.bld d b) :=
  ⟨rfl, rfl, rfl, fun h => h⟩

theorem EncodeLength.sec : EncodeLength.Statement (.sec) :=
  ⟨rfl, rfl, rfl, fun h => h⟩

theorem EncodeLength.clc : EncodeLength.Statement (.clc) :=
  ⟨rfl, rfl, rfl, fun h => h⟩

theorem EncodeLength.sen : EncodeLength.Statement (.sen) :=
  ⟨rfl, rfl, rfl, fun h => h⟩

theorem EncodeLength.cln : EncodeLength.Statement (.cln) :=
  ⟨rfl, rfl, rfl, fun h => h⟩

theorem EncodeLength.sez : EncodeLength.Statement (.sez) :=
  ⟨rfl, rfl, rfl, fun h => h⟩

theorem EncodeLength.clz : EncodeLength.Statement (.clz) :=
  ⟨rfl, rfl, rfl, fun h => h⟩

theorem EncodeLength.sei : EncodeLength.Statement (.sei) :=
  ⟨rfl, rfl, rfl, fun h => h⟩

theorem EncodeLength.cli : EncodeLength.Statement (.cli) :=
  ⟨rfl, rfl, rfl, fun h => h⟩

theorem EncodeLength.ses : EncodeLength.Statement (.ses) :=
  ⟨rfl, rfl, rfl, fun h => h⟩

theorem EncodeLength.cls : EncodeLength.Statement (.cls) :=
  ⟨rfl, rfl, rfl, fun h => h⟩

theorem EncodeLength.sev : EncodeLength.Statement (.sev) :=
  ⟨rfl, rfl, rfl, fun h => h⟩

theorem EncodeLength.clv : EncodeLength.Statement (.clv) :=
  ⟨rfl, rfl, rfl, fun h => h⟩

theorem EncodeLength.setT : EncodeLength.Statement (.setT) :=
  ⟨rfl, rfl, rfl, fun h => h⟩

theorem EncodeLength.clt : EncodeLength.Statement (.clt) :=
  ⟨rfl, rfl, rfl, fun h => h⟩

theorem EncodeLength.seh : EncodeLength.Statement (.seh) :=
  ⟨rfl, rfl, rfl, fun h => h⟩

theorem EncodeLength.clh : EncodeLength.Statement (.clh) :=
  ⟨rfl, rfl, rfl, fun h => h⟩

theorem EncodeLength.nop : EncodeLength.Statement (.nop) :=
  ⟨rfl, rfl, rfl, fun h => h⟩

theorem EncodeLength.sleep : EncodeLength.Statement (.sleep) :=
  ⟨rfl, rfl, rfl, fun h => h⟩

theorem EncodeLength.wdr : EncodeLength.Statement (.wdr) :=
  ⟨rfl, rfl, rfl, fun h => h⟩

theorem EncodeLength.lpm : EncodeLength.Statement (.lpm) :=
  ⟨rfl, rfl, rfl, fun h => h⟩

theorem EncodeLength.adiw (d : Reg) (k : BitVec 6) : EncodeLength.Statement (.adiw d k) :=
  ⟨rfl, rfl, rfl, fun h => h⟩

theorem EncodeLength.sbiw (d : Reg) (k : BitVec 6) : EncodeLength.Statement (.sbiw d k) :=
  ⟨rfl, rfl, rfl, fun h => h⟩

theorem EncodeLength.ijmp : EncodeLength.Statement (.ijmp) :=
  ⟨rfl, rfl, rfl, fun h => h⟩

theorem EncodeLength.icall : EncodeLength.Statement (.icall) :=
  ⟨rfl, rfl, rfl, fun h => h⟩

theorem EncodeLength.lds (d : Reg) (k : Word) : EncodeLength.Statement (.lds d k) :=
  ⟨rfl, rfl, rfl, fun h => h⟩

theorem EncodeLength.ldX (d : Reg) : EncodeLength.Statement (.ldX d) :=
  ⟨rfl, rfl, rfl, fun h => h⟩

theorem EncodeLength.ldXInc (d : Reg) : EncodeLength.Statement (.ldXInc d) :=
  ⟨rfl, rfl, rfl, fun h => h⟩

theorem EncodeLength.ldXDec (d : Reg) : EncodeLength.Statement (.ldXDec d) :=
  ⟨rfl, rfl, rfl, fun h => h⟩

theorem EncodeLength.ldY (d : Reg) : EncodeLength.Statement (.ldY d) :=
  ⟨rfl, rfl, rfl, fun h => h⟩

theorem EncodeLength.ldYInc (d : Reg) : EncodeLength.Statement (.ldYInc d) :=
  ⟨rfl, rfl, rfl, fun h => h⟩

theorem EncodeLength.ldYDec (d : Reg) : EncodeLength.Statement (.ldYDec d) :=
  ⟨rfl, rfl, rfl, fun h => h⟩

theorem EncodeLength.lddY (d : Reg) (q : BitVec 6) : EncodeLength.Statement (.lddY d q) :=
  ⟨rfl, rfl, rfl, fun h => h⟩

theorem EncodeLength.ldZInc (d : Reg) : EncodeLength.Statement (.ldZInc d) :=
  ⟨rfl, rfl, rfl, fun h => h⟩

theorem EncodeLength.ldZDec (d : Reg) : EncodeLength.Statement (.ldZDec d) :=
  ⟨rfl, rfl, rfl, fun h => h⟩

theorem EncodeLength.lddZ (d : Reg) (q : BitVec 6) : EncodeLength.Statement (.lddZ d q) :=
  ⟨rfl, rfl, rfl, fun h => h⟩

theorem EncodeLength.sts (k : Word) (r : Reg) : EncodeLength.Statement (.sts k r) :=
  ⟨rfl, rfl, rfl, fun h => h⟩

theorem EncodeLength.stX (r : Reg) : EncodeLength.Statement (.stX r) :=
  ⟨rfl, rfl, rfl, fun h => h⟩

theorem EncodeLength.stXInc (r : Reg) : EncodeLength.Statement (.stXInc r) :=
  ⟨rfl, rfl, rfl, fun h => h⟩

theorem EncodeLength.stXDec (r : Reg) : EncodeLength.Statement (.stXDec r) :=
  ⟨rfl, rfl, rfl, fun h => h⟩

theorem EncodeLength.stY (r : Reg) : EncodeLength.Statement (.stY r) :=
  ⟨rfl, rfl, rfl, fun h => h⟩

theorem EncodeLength.stYInc (r : Reg) : EncodeLength.Statement (.stYInc r) :=
  ⟨rfl, rfl, rfl, fun h => h⟩

theorem EncodeLength.stYDec (r : Reg) : EncodeLength.Statement (.stYDec r) :=
  ⟨rfl, rfl, rfl, fun h => h⟩

theorem EncodeLength.stdY (q : BitVec 6) (r : Reg) : EncodeLength.Statement (.stdY q r) :=
  ⟨rfl, rfl, rfl, fun h => h⟩

theorem EncodeLength.stZInc (r : Reg) : EncodeLength.Statement (.stZInc r) :=
  ⟨rfl, rfl, rfl, fun h => h⟩

theorem EncodeLength.stZDec (r : Reg) : EncodeLength.Statement (.stZDec r) :=
  ⟨rfl, rfl, rfl, fun h => h⟩

theorem EncodeLength.stdZ (q : BitVec 6) (r : Reg) : EncodeLength.Statement (.stdZ q r) :=
  ⟨rfl, rfl, rfl, fun h => h⟩

theorem EncodeLength.push (r : Reg) : EncodeLength.Statement (.push r) :=
  ⟨rfl, rfl, rfl, fun h => h⟩

theorem EncodeLength.pop (d : Reg) : EncodeLength.Statement (.pop d) :=
  ⟨rfl, rfl, rfl, fun h => h⟩

theorem EncodeLength.jmp (k : BitVec 22) : EncodeLength.Statement (.jmp k) :=
  ⟨rfl, rfl, rfl, fun h => h⟩

theorem EncodeLength.call (k : BitVec 22) : EncodeLength.Statement (.call k) :=
  ⟨rfl, rfl, rfl, fun h => h⟩

theorem EncodeLength.elpm : EncodeLength.Statement (.elpm) :=
  ⟨rfl, rfl, rfl, fun h => h⟩

theorem EncodeLength.mul (d r : Reg) : EncodeLength.Statement (.mul d r) :=
  ⟨rfl, rfl, rfl, fun h => h⟩

theorem EncodeLength.muls (d r : Reg) : EncodeLength.Statement (.muls d r) :=
  ⟨rfl, rfl, rfl, fun h => h⟩

theorem EncodeLength.mulsu (d r : Reg) : EncodeLength.Statement (.mulsu d r) :=
  ⟨rfl, rfl, rfl, fun h => h⟩

theorem EncodeLength.fmul (d r : Reg) : EncodeLength.Statement (.fmul d r) :=
  ⟨rfl, rfl, rfl, fun h => h⟩

theorem EncodeLength.fmuls (d r : Reg) : EncodeLength.Statement (.fmuls d r) :=
  ⟨rfl, rfl, rfl, fun h => h⟩

theorem EncodeLength.fmulsu (d r : Reg) : EncodeLength.Statement (.fmulsu d r) :=
  ⟨rfl, rfl, rfl, fun h => h⟩

theorem EncodeLength.movw (d r : Reg) : EncodeLength.Statement (.movw d r) :=
  ⟨rfl, rfl, rfl, fun h => h⟩

theorem EncodeLength.lpmZ (d : Reg) : EncodeLength.Statement (.lpmZ d) :=
  ⟨rfl, rfl, rfl, fun h => h⟩

theorem EncodeLength.lpmZInc (d : Reg) : EncodeLength.Statement (.lpmZInc d) :=
  ⟨rfl, rfl, rfl, fun h => h⟩

theorem EncodeLength.spm : EncodeLength.Statement (.spm) :=
  ⟨rfl, rfl, rfl, fun h => h⟩

theorem EncodeLength.brk : EncodeLength.Statement (.brk) :=
  ⟨rfl, rfl, rfl, fun h => h⟩

theorem EncodeLength.elpmZ (d : Reg) : EncodeLength.Statement (.elpmZ d) :=
  ⟨rfl, rfl, rfl, fun h => h⟩

theorem EncodeLength.elpmZInc (d : Reg) : EncodeLength.Statement (.elpmZInc d) :=
  ⟨rfl, rfl, rfl, fun h => h⟩

theorem EncodeLength.eijmp : EncodeLength.Statement (.eijmp) :=
  ⟨rfl, rfl, rfl, fun h => h⟩

theorem EncodeLength.eicall : EncodeLength.Statement (.eicall) :=
  ⟨rfl, rfl, rfl, fun h => h⟩

end Sys2Proof.Laws
end

