-- ==== Sys2Proof/Laws/Stack.lean ====
section
/-! SUPPORT. What a push, a pushed and a popped return address do on the data stack, in full. -/

namespace Sys2Proof.Machine

/-- What one push does, for every location that SP can point to. -/
structure PushStep (v : Byte) (s t : State) : Prop where
  sp : t.sp = s.sp - 1#16
  sram : ∀ b, t.sramByte? b = if dataRegion s.cfg s.sp = .sram ∧ b = s.sp then some v else s.sramByte? b
  reg : ∀ i, t.reg i = if dataRegion s.cfg s.sp = .register ∧ i.val = s.sp.toNat then v else s.reg i
  cfg : t.cfg = s.cfg
  pc : t.pc = s.pc
  hwStack : t.hwStack = s.hwStack
  runState : t.runState = s.runState
  boundaries : t.boundaries = s.boundaries
  ioAnswers : t.ioAnswers = s.ioAnswers
  draws : t.draws = s.draws
  prog : t.prog = s.prog
  noIo : dataRegion s.cfg s.sp ≠ .io →
    t.sreg = s.sreg ∧ t.irqShadow = s.irqShadow ∧ t.events = s.events ∧ t.rampz = s.rampz ∧ t.eind = s.eind

theorem regOfData_eq_iff {c : Config} {a : Word} (h : dataRegion c a = .register) (i : Reg) :
    i = regOfData a ↔ i.val = a.toNat := by
  have ha : a.toNat ≤ 0x1F := by
    unfold dataRegion at h
    split_ifs at h
    assumption
  rw [← Fin.val_inj, regOfData, Fin.val_ofNat, Nat.mod_eq_of_lt (by omega)]

theorem State.push8_step {s : State} (v : Byte) (h : dataRegion s.cfg s.sp ≠ .unimplemented) :
    ∃ t, s.push8 v = .next t ∧ PushStep v s t := by
  obtain ⟨t, ht⟩ := State.push8_of_implemented v h
  refine ⟨t, ht, ?_⟩
  obtain ⟨u, hu, rfl⟩ := State.push8_next ht
  rcases State.memWrite_cases hu with ⟨hr, rfl⟩ | ⟨hr, rfl⟩ | ⟨hr, rfl⟩
  · refine ⟨rfl, fun b => ?_, fun i => ?_, rfl, rfl, rfl, rfl, rfl, rfl, rfl, rfl, fun _ => ⟨rfl, rfl, rfl, rfl, rfl⟩⟩
    · simp only [hr, reduceCtorEq, false_and, if_false]; rfl
    · show (s.setReg _ v).reg i = _
      rw [State.reg_setReg]
      simp only [hr, true_and, regOfData_eq_iff hr]
  · obtain ⟨f1, f2, f3, f4, -⟩ := State.ioWrite_frame s (ioOfData s.sp) v
    have e := State.ioWrite_effect s (ioOfData s.sp) v
    refine ⟨rfl, fun b => ?_, fun i => ?_, e.cfg, f3, e.hwStack, e.runState, e.boundaries, e.ioAnswers, e.draws, f4, fun hn => absurd hr hn⟩
    · simp only [hr, reduceCtorEq, false_and, if_false, State.sramByte?, f2]
    · simp only [hr, reduceCtorEq, false_and, if_false, State.reg, f1]
  · refine ⟨rfl, fun b => ?_, fun i => ?_, rfl, rfl, rfl, rfl, rfl, rfl, rfl, rfl, fun _ => ⟨rfl, rfl, rfl, rfl, rfl⟩⟩
    · simp only [hr, true_and]
      exact State.sramByte_write s s.sp b v
    · simp only [hr, reduceCtorEq, false_and, if_false]; rfl

theorem retBytes_cases (c : Config) : c.retBytes = 2 ∨ c.retBytes = 3 := by
  unfold Config.retBytes
  split_ifs <;> simp

/-- A push of a return address on the data stack, wherever the stack bytes are implemented. -/
theorem State.pushPc_pushed {s : State} (a : PcWord) (h : CanPush s.cfg.retBytes s) :
    ∃ t, s.pushPc a = .next t ∧ Pushed a s t ∧ t.pc = s.pc ∧ t.runState = s.runState ∧
      ((∀ j, j < s.cfg.retBytes → dataRegion s.cfg (s.sp - BitVec.ofNat 16 j) ≠ .io) →
        t.sreg = s.sreg ∧ t.irqShadow = s.irqShadow ∧ t.events = s.events) := by
  obtain ⟨hs, hi⟩ := h
  have hb := retBytes_cases s.cfg
  have h0 : s.sp - BitVec.ofNat 16 0 = s.sp := by simp
  have h1 : s.sp - BitVec.ofNat 16 1 = s.sp - 1#16 := rfl
  have h2 : s.sp - BitVec.ofNat 16 2 = s.sp - 1#16 - 1#16 := by bv_omega
  obtain ⟨t, ht, pt⟩ := State.push8_step (pcByte a 0) (by have := hi 0 (by omega); rwa [h0] at this)
  obtain ⟨u, hu, pu⟩ := State.push8_step (s := t) (pcByte a 1) (by
    have := hi 1 (by omega); rw [h1] at this; rwa [pt.cfg, pt.sp])
  have pus : u.sp = s.sp - 1#16 - 1#16 := by rw [pu.sp, pt.sp]
  have puc : u.cfg = s.cfg := by rw [pu.cfg, pt.cfg]
  rcases hb with hb | hb
  · refine ⟨u, by simp [State.pushPc, hs, ht, hu, hb], ?_, by rw [pu.pc, pt.pc], by rw [pu.runState, pt.runState], fun hn => ?_⟩
    · constructor
      · rw [hb, h2, pus]
      · intro j hj hr
        rw [pu.sram, pt.sram, pt.cfg, pt.sp]
        obtain rfl | rfl : j = 0 ∨ j = 1 := by omega
        · rw [h0] at hr ⊢
          rw [if_neg (fun e => by have := e.2; bv_omega), if_pos ⟨hr, rfl⟩]
        · rw [h1] at hr ⊢
          rw [if_pos ⟨hr, rfl⟩]
      · intro j hj hr
        have hv := (regOfData_eq_iff hr (regOfData (s.sp - BitVec.ofNat 16 j))).mp rfl
        rw [pu.reg, pt.reg, pt.cfg, pt.sp]
        obtain rfl | rfl : j = 0 ∨ j = 1 := by omega
        · rw [h0] at hr hv ⊢
          rw [if_neg (fun e => by have := e.2; rw [hv] at this; bv_omega), if_pos ⟨hr, hv⟩]
        · rw [h1] at hr hv ⊢
          rw [if_pos ⟨hr, hv⟩]
      · intro b hb'
        have b0 := hb' 0 (by omega)
        have b1 := hb' 1 (by omega)
        rw [h0] at b0; rw [h1] at b1
        rw [pu.sram, pt.sram, pt.sp, if_neg (fun e => b1 e.2), if_neg (fun e => b0 e.2)]
      · intro i hi'
        have b0 := hi' 0 (by omega)
        have b1 := hi' 1 (by omega)
        rw [h0] at b0; rw [h1] at b1
        rw [pu.reg, pt.reg, pt.sp, if_neg (fun e => b1 e.2), if_neg (fun e => b0 e.2)]
      · exact puc
      · rw [pu.hwStack, pt.hwStack]
      · rw [pu.boundaries, pt.boundaries]
      · rw [pu.ioAnswers, pt.ioAnswers]
      · rw [pu.draws, pt.draws]
      · intro b; simp only [State.progByte, pu.prog, pt.prog]
      · intro hn
        have n0 := pt.noIo (by have := hn 0 (by omega); rwa [h0] at this)
        have n1 := pu.noIo (by have := hn 1 (by omega); rw [h1] at this; rwa [pt.cfg, pt.sp])
        exact ⟨n1.2.2.2.1.trans n0.2.2.2.1, n1.2.2.2.2.trans n0.2.2.2.2⟩
    · have n0 := pt.noIo (by have := hn 0 (by omega); rwa [h0] at this)
      have n1 := pu.noIo (by have := hn 1 (by omega); rw [h1] at this; rwa [pt.cfg, pt.sp])
      exact ⟨n1.1.trans n0.1, n1.2.1.trans n0.2.1, n1.2.2.1.trans n0.2.2.1⟩
  · obtain ⟨w, hw, pw⟩ := State.push8_step (s := u) (pcByte a 2) (by
      have := hi 2 (by omega); rw [h2] at this; rwa [puc, pus])
    have h3 : s.sp - BitVec.ofNat 16 3 = s.sp - 1#16 - 1#16 - 1#16 := by bv_omega
    refine ⟨w, by simp [State.pushPc, hs, ht, hu, hw, hb], ?_, by rw [pw.pc, pu.pc, pt.pc], by rw [pw.runState, pu.runState, pt.runState],
      fun hn => ?_⟩
    · constructor
      · rw [hb, h3, pw.sp, pus]
      · intro j hj hr
        rw [pw.sram, pu.sram, pt.sram, puc, pus, pt.cfg, pt.sp]
        obtain rfl | rfl | rfl : j = 0 ∨ j = 1 ∨ j = 2 := by omega
        · rw [h0] at hr ⊢
          rw [if_neg (fun e => by have := e.2; bv_omega), if_neg (fun e => by have := e.2; bv_omega), if_pos ⟨hr, rfl⟩]
        · rw [h1] at hr ⊢
          rw [if_neg (fun e => by have := e.2; bv_omega), if_pos ⟨hr, rfl⟩]
        · rw [h2] at hr ⊢
          rw [if_pos ⟨hr, rfl⟩]
      · intro j hj hr
        have hv := (regOfData_eq_iff hr (regOfData (s.sp - BitVec.ofNat 16 j))).mp rfl
        rw [pw.reg, pu.reg, pt.reg, puc, pus, pt.cfg, pt.sp]
        obtain rfl | rfl | rfl : j = 0 ∨ j = 1 ∨ j = 2 := by omega
        · rw [h0] at hr hv ⊢
          rw [if_neg (fun e => by have := e.2; rw [hv] at this; bv_omega),
            if_neg (fun e => by have := e.2; rw [hv] at this; bv_omega), if_pos ⟨hr, hv⟩]
        · rw [h1] at hr hv ⊢
          rw [if_neg (fun e => by have := e.2; rw [hv] at this; bv_omega), if_pos ⟨hr, hv⟩]
        · rw [h2] at hr hv ⊢
          rw [if_pos ⟨hr, hv⟩]
      · intro b hb'
        have b0 := hb' 0 (by omega)
        have b1 := hb' 1 (by omega)
        have b2 := hb' 2 (by omega)
        rw [h0] at b0; rw [h1] at b1; rw [h2] at b2
        rw [pw.sram, pu.sram, pt.sram, pus, pt.sp, if_neg (fun e => b2 e.2), if_neg (fun e => b1 e.2), if_neg (fun e => b0 e.2)]
      · intro i hi'
        have b0 := hi' 0 (by omega)
        have b1 := hi' 1 (by omega)
        have b2 := hi' 2 (by omega)
        rw [h0] at b0; rw [h1] at b1; rw [h2] at b2
        rw [pw.reg, pu.reg, pt.reg, pus, pt.sp, if_neg (fun e => b2 e.2), if_neg (fun e => b1 e.2), if_neg (fun e => b0 e.2)]
      · rw [pw.cfg, puc]
      · rw [pw.hwStack, pu.hwStack, pt.hwStack]
      · rw [pw.boundaries, pu.boundaries, pt.boundaries]
      · rw [pw.ioAnswers, pu.ioAnswers, pt.ioAnswers]
      · rw [pw.draws, pu.draws, pt.draws]
      · intro b; simp only [State.progByte, pw.prog, pu.prog, pt.prog]
      · intro hn
        have n0 := pt.noIo (by have := hn 0 (by omega); rwa [h0] at this)
        have n1 := pu.noIo (by have := hn 1 (by omega); rw [h1] at this; rwa [pt.cfg, pt.sp])
        have n2 := pw.noIo (by have := hn 2 (by omega); rw [h2] at this; rwa [puc, pus])
        exact ⟨n2.2.2.2.1.trans (n1.2.2.2.1.trans n0.2.2.2.1), n2.2.2.2.2.trans (n1.2.2.2.2.trans n0.2.2.2.2)⟩
    · have n0 := pt.noIo (by have := hn 0 (by omega); rwa [h0] at this)
      have n1 := pu.noIo (by have := hn 1 (by omega); rw [h1] at this; rwa [pt.cfg, pt.sp])
      have n2 := pw.noIo (by have := hn 2 (by omega); rw [h2] at this; rwa [puc, pus])
      exact ⟨n2.1.trans (n1.1.trans n0.1), n2.2.1.trans (n1.2.1.trans n0.2.1), n2.2.2.1.trans (n1.2.2.1.trans n0.2.2.1)⟩

/-- A push of a return address on the data stack stops at the first of its bytes that is not implemented. -/
theorem State.pushPc_of_unimplemented {s : State} {j : Nat} (a : PcWord) (hs : s.cfg.hasSp = true) (hj : j < s.cfg.retBytes)
    (hi : ∀ m, m < j → dataRegion s.cfg (s.sp - BitVec.ofNat 16 m) ≠ .unimplemented)
    (hu : dataRegion s.cfg (s.sp - BitVec.ofNat 16 j) = .unimplemented) :
    s.pushPc a = .fault (.unimplementedData (s.sp - BitVec.ofNat 16 j).toNat) := by
  have h0 : s.sp - BitVec.ofNat 16 0 = s.sp := by bv_omega
  have h1 : s.sp - BitVec.ofNat 16 1 = s.sp - 1#16 := rfl
  have h2 : s.sp - BitVec.ofNat 16 2 = s.sp - 1#16 - 1#16 := by bv_omega
  rw [State.pushPc, if_pos hs]
  rcases j with _ | j
  · rw [h0] at hu ⊢
    rw [State.push8_of_unimplemented _ hu]; rfl
  obtain ⟨t, ht, pt⟩ := State.push8_step (s := s) (pcByte a 0) (h0 ▸ hi 0 (by omega))
  rw [ht]; simp only [bindRes]
  rcases j with _ | j
  · rw [h1, ← pt.sp] at hu ⊢
    rw [← pt.cfg] at hu
    rw [State.push8_of_unimplemented _ hu]
  obtain ⟨u, hu', pu⟩ := State.push8_step (s := t) (pcByte a 1) (by rw [pt.cfg, pt.sp]; exact hi 1 (by omega))
  rw [hu']; simp only
  have hb := retBytes_cases s.cfg
  obtain rfl : j = 0 := by omega
  have hus : u.sp = s.sp - 1#16 - 1#16 := by rw [pu.sp, pt.sp]
  rw [if_pos (by omega), h2, ← hus]
  rw [h2, ← hus, ← pt.cfg, ← pu.cfg] at hu
  exact State.push8_of_unimplemented _ hu

/-- A pop of a byte that the core's own memory holds gives it and changes SP alone. -/
theorem State.pop8_held {s : State} {v : Byte} (hi : dataRegion s.cfg (s.sp + 1#16) ≠ .unimplemented) (h : StackHolds s 1 v) :
    s.pop8 = .next (v, { s with sp := s.sp + 1#16 }) := by
  obtain ⟨hio, hp⟩ := h
  rw [show s.sp + BitVec.ofNat 16 1 = s.sp + 1#16 from rfl] at hio hp
  unfold State.pop8 State.memRead
  dsimp only
  unfold State.peek at hp
  cases hr : dataRegion s.cfg (s.sp + 1#16) with
  | register =>
    have c1 : (s.sp + 1#16).toNat ≤ 0x1F := by unfold dataRegion at hr; split_ifs at hr; assumption
    rw [if_pos c1] at hp
    cases hp; rfl
  | io => exact absurd hr hio
  | sram =>
    have c1 : ¬ (s.sp + 1#16).toNat ≤ 0x1F := by unfold dataRegion at hr; split_ifs at hr; assumption
    have c2 : ¬ (s.sp + 1#16).toNat ≤ 0x5F := by unfold dataRegion at hr; split_ifs at hr; assumption
    rw [if_neg c1, if_neg c2] at hp
    have hp' : ({ s with sp := s.sp + 1#16 } : State).sramByte? (s.sp + 1#16) = some v := hp
    simp only [hp']
  | unimplemented => exact absurd hr hi

/-- What one pop does: SP one greater, the environment's data, nothing else; a byte that the core's own memory holds comes without
the environment. -/
structure PopStep (v : Byte) (s t : State) : Prop where
  sp : t.sp = s.sp + 1#16
  cfg : t.cfg = s.cfg
  regs : t.regs = s.regs
  pc : t.pc = s.pc
  sreg : t.sreg = s.sreg
  rampz : t.rampz = s.rampz
  eind : t.eind = s.eind
  sram : t.sram = s.sram
  hwStack : t.hwStack = s.hwStack
  prog : t.prog = s.prog
  irqShadow : t.irqShadow = s.irqShadow
  runState : t.runState = s.runState
  held : ∀ w, StackHolds s 1 w → v = w ∧ SameEnv s t

theorem State.pop8_step {s : State} (hi : dataRegion s.cfg (s.sp + 1#16) ≠ .unimplemented) :
    ∃ v t, s.pop8 = .next (v, t) ∧ PopStep v s t := by
  obtain ⟨v, t, ht⟩ := State.pop8_of_implemented hi
  refine ⟨v, t, ht, ?_⟩
  have hheld : ∀ w, StackHolds s 1 w → v = w ∧ SameEnv s t := by
    intro w hw
    have := State.pop8_held hi hw
    rw [ht] at this
    injection this with this
    injection this with h1 h2
    subst h2
    exact ⟨h1, rfl, rfl, rfl, rfl⟩
  obtain ⟨-, a, e, d, rfl⟩ := State.pop8_next ht
  exact ⟨rfl, rfl, rfl, rfl, rfl, rfl, rfl, rfl, rfl, rfl, rfl, rfl, hheld⟩

/-- A pop leaves what the stack holds further up. -/
theorem StackHolds.after_pop {v w : Byte} {s t : State} {j : Nat} (h : PopStep v s t)
    (hi : dataRegion s.cfg (s.sp + BitVec.ofNat 16 (j + 1)) ≠ .unimplemented) (hw : StackHolds s (j + 1) w) : StackHolds t j w := by
  have ha : t.sp + BitVec.ofNat 16 j = s.sp + BitVec.ofNat 16 (j + 1) := by rw [h.sp]; bv_omega
  unfold StackHolds at hw ⊢
  rw [ha, h.cfg]
  refine ⟨hw.1, ?_⟩
  rw [← hw.2]
  unfold State.peek
  have hio := hw.1
  split_ifs with c1 c2
  · simp only [State.reg, h.regs]
  · exfalso
    unfold dataRegion at hio hi
    split_ifs at hio hi <;> simp_all
  · simp only [State.sramByte?, h.sram]

/-- What a popped return address is, and what the pop leaves: `Popped` before the program counter is written. -/
theorem State.popPc_popped {s : State} (h : CanPop s.cfg.retBytes s) :
    ∃ n t, s.popPc = .next (s.cfg.wrapPc n, t) ∧ Popped s { t with pc := s.cfg.wrapPc n } ∧ t.pc = s.pc ∧ t.sreg = s.sreg ∧
      t.irqShadow = s.irqShadow := by
  obtain ⟨hs, hi⟩ := h
  have hb := retBytes_cases s.cfg
  have i1 := hi 1 (by omega) (by omega)
  have i2 := hi 2 (by omega) (by omega)
  obtain ⟨v1, t1, p1, q1⟩ := State.pop8_step i1
  have e2 : t1.sp + 1#16 = s.sp + BitVec.ofNat 16 2 := by rw [q1.sp]; bv_omega
  obtain ⟨v2, t2, p2, q2⟩ := State.pop8_step (s := t1) (by rw [e2, q1.cfg]; exact i2)
  rcases hb with hb | hb
  · refine ⟨v1.toNat * 256 + v2.toNat, t2, by simp [State.popPc, hs, hb, p1, p2], ?_, by rw [q2.pc, q1.pc], by rw [q2.sreg, q1.sreg],
      by rw [q2.irqShadow, q1.irqShadow]⟩
    constructor
    · show t2.sp = _
      rw [hb, q2.sp, e2]
    · intro b1 b0 _ g1 g0
      obtain ⟨rfl, n1⟩ := q1.held _ g1
      obtain ⟨rfl, n2⟩ := q2.held _ (g0.after_pop q1 i2)
      exact ⟨rfl, n2.1.trans n1.1, n2.2.trans n1.2, n2.3.trans n1.3, n2.4.trans n1.4⟩
    · intro b2 b1 b0 hb3
      omega
    · intro i _
      show t2.reg i = _
      simp only [State.reg, q2.regs, q1.regs]
    · intro a
      show t2.sramByte? a = _
      simp only [State.sramByte?, q2.sram, q1.sram]
    · exact ⟨q2.cfg.trans q1.cfg, q2.rampz.trans q1.rampz, q2.eind.trans q1.eind, q2.hwStack.trans q1.hwStack,
        q2.runState.trans q1.runState, fun b => by show t2.progByte b = _; simp only [State.progByte, q2.prog, q1.prog]⟩
  · have i3 := hi 3 (by omega) (by omega)
    have e3 : t2.sp + 1#16 = s.sp + BitVec.ofNat 16 3 := by rw [q2.sp, q1.sp]; bv_omega
    obtain ⟨v3, t3, p3, q3⟩ := State.pop8_step (s := t2) (by rw [e3, q2.cfg, q1.cfg]; exact i3)
    refine ⟨v1.toNat * 65536 + v2.toNat * 256 + v3.toNat, t3, by simp [State.popPc, hs, hb, p1, p2, p3], ?_,
      by rw [q3.pc, q2.pc, q1.pc], by rw [q3.sreg, q2.sreg, q1.sreg], by rw [q3.irqShadow, q2.irqShadow, q1.irqShadow]⟩
    constructor
    · show t3.sp = _
      rw [hb, q3.sp, e3]
    · intro b1 b0 hb3
      omega
    · intro b2 b1 b0 _ g2 g1 g0
      obtain ⟨rfl, n1⟩ := q1.held _ g2
      obtain ⟨rfl, n2⟩ := q2.held _ (g1.after_pop q1 i2)
      have g0' : StackHolds t1 2 b0 := g0.after_pop q1 i3
      obtain ⟨rfl, n3⟩ := q3.held _ (g0'.after_pop q2 (by
        have : t1.sp + BitVec.ofNat 16 2 = s.sp + BitVec.ofNat 16 3 := by rw [q1.sp]; bv_omega
        rw [this, q1.cfg]; exact i3))
      exact ⟨rfl, n3.1.trans (n2.1.trans n1.1), n3.2.trans (n2.2.trans n1.2), n3.3.trans (n2.3.trans n1.3), n3.4.trans (n2.4.trans n1.4)⟩
    · intro i _
      show t3.reg i = _
      simp only [State.reg, q3.regs, q2.regs, q1.regs]
    · intro a
      show t3.sramByte? a = _
      simp only [State.sramByte?, q3.sram, q2.sram, q1.sram]
    · exact ⟨q3.cfg.trans (q2.cfg.trans q1.cfg), q3.rampz.trans (q2.rampz.trans q1.rampz), q3.eind.trans (q2.eind.trans q1.eind),
        q3.hwStack.trans (q2.hwStack.trans q1.hwStack), q3.runState.trans (q2.runState.trans q1.runState),
        fun b => by show t3.progByte b = _; simp only [State.progByte, q3.prog, q2.prog, q1.prog]⟩

/-- A pop of a return address from the data stack stops at the first of its bytes that is not implemented. -/
theorem State.popPc_of_unimplemented {s : State} {j : Nat} (hs : s.cfg.hasSp = true) (hj : 1 ≤ j) (hj' : j ≤ s.cfg.retBytes)
    (hi : ∀ m, 1 ≤ m → m < j → dataRegion s.cfg (s.sp + BitVec.ofNat 16 m) ≠ .unimplemented)
    (hu : dataRegion s.cfg (s.sp + BitVec.ofNat 16 j) = .unimplemented) :
    s.popPc = .fault (.unimplementedData (s.sp + BitVec.ofNat 16 j).toNat) := by
  have h1 : s.sp + BitVec.ofNat 16 1 = s.sp + 1#16 := rfl
  have h2 : s.sp + BitVec.ofNat 16 2 = s.sp + 1#16 + 1#16 := by bv_omega
  have h3 : s.sp + BitVec.ofNat 16 3 = s.sp + 1#16 + 1#16 + 1#16 := by bv_omega
  have hb := retBytes_cases s.cfg
  rw [State.popPc, if_pos hs]
  obtain rfl | hj1 : j = 1 ∨ 2 ≤ j := by omega
  · rw [h1] at hu ⊢
    split_ifs <;> simp [bindRes, State.pop8_of_unimplemented hu]
  obtain ⟨v, t, ht, pt⟩ := State.pop8_step (s := s) (h1 ▸ hi 1 (by omega) (by omega))
  obtain rfl | rfl : j = 2 ∨ j = 3 := by omega
  · rw [h2, ← pt.sp] at hu ⊢
    rw [← pt.cfg] at hu
    split_ifs <;> simp [bindRes, ht, State.pop8_of_unimplemented hu]
  · obtain ⟨w, u, hw, pu⟩ := State.pop8_step (s := t) (by rw [pt.cfg, pt.sp, ← h2]; exact hi 2 (by omega) (by omega))
    have hus : u.sp = s.sp + 1#16 + 1#16 := by rw [pu.sp, pt.sp]
    rw [h3, ← hus] at hu ⊢
    rw [← pt.cfg, ← pu.cfg] at hu
    rw [if_pos (by omega)]
    simp [bindRes, ht, hw, State.pop8_of_unimplemented hu]

end Sys2Proof.Machine
end

