-- ==== Sys2Proof/Tests/Slice0.lean ====
section
/-! SUPPORT. Tests: each check of WellFormed, every row's encoding, one or two steps per instruction, and for every statement with
hypotheses a state and operands that meet them. The words and the states before and after are those of spec/95_test_vectors.md. -/

namespace Sys2Proof.Tests

open Sys2Proof Sys2Proof.Machine

/-- The device of spec/95_test_vectors.md. -/
def device : Config := ⟨.atmega323, 16384, 14, 0x85F, 3, 64, 2, .refuse, .refuse, .refuse⟩

/-- A state with some registers and program words set. -/
def start (c : Config) (regs : List (Nat × Byte)) (words : List (Nat × Word)) : State :=
  words.foldl (fun s x => s.setProgWord x.1 x.2)
    (regs.foldl (fun s x => s.setReg (Fin.ofNat 32 x.1) x.2) { State.reset with cfg := c })

/-- The answer is a next state with `p`. -/
def after (o : Res State) (p : State → Bool) : Bool :=
  match o with
  | .next t => p t
  | .fault _ => false
  | .refused _ => false

theorem exists_of_after {o : Res State} {p : State → Bool} (h : after o p = true) : ∃ t, o = .next t ∧ p t = true := by
  cases o with
  | next t => exact ⟨t, rfl, h⟩
  | fault _ => cases h
  | refused _ => cases h

/-! ### WellFormed refuses what no encoding reaches -/

theorem test_wf_upper : ∀ i ∈ [Instr.subi 15 0#8, .sbci 15 0#8, .andi 15 0#8, .ori 15 0#8, .sbr 15 0#8, .cbr 15 0#8, .ser 15,
    .cpi 15 0#8, .ldi 15 0#8], i.wellFormed = false := by decide

theorem test_wf_word_pair : ∀ i ∈ [Instr.adiw 25 0#6, .adiw 22 0#6, .sbiw 31 0#6, .sbiw 0 0#6], i.wellFormed = false := by decide

theorem test_wf_multiplies : ∀ i ∈ [Instr.muls 15 16, .muls 16 15, .mulsu 24 16, .mulsu 16 15, .fmul 24 16, .fmul 16 24, .fmuls 15 16,
    .fmuls 16 24, .fmulsu 24 23, .fmulsu 23 24], i.wellFormed = false := by decide

theorem test_wf_movw : ∀ i ∈ [Instr.movw 1 0, .movw 0 31], i.wellFormed = false := by decide

theorem test_wf_accepts : ∀ i ∈ [Instr.subi 16 0#8, .adiw 30 63#6, .muls 31 16, .mulsu 23 16, .movw 30 28, .add 0 31],
    i.wellFormed = true := by decide

/-! ### Every row's encoding (R95 to R106) -/

/-- An alias row's word decodes to its expansion, and is what the row encodes to. -/
def isAlias (x : Instr × Word) : Bool :=
  decide (decodeWords x.2 0#16 = some x.1.canonical ∧ x.1.canonical ≠ x.1 ∧ encode x.1 = [x.2])

theorem test_decode_arithmetic :
    decodeWords 0x0C12#16 0x0000#16 = some (.add 1 2) ∧
    decodeWords 0x1C34#16 0x0000#16 = some (.adc 3 4) ∧
    decodeWords 0x1B01#16 0x0000#16 = some (.sub 16 17) ∧
    decodeWords 0x5200#16 0x0000#16 = some (.subi 16 0x20#8) ∧
    decodeWords 0x0823#16 0x0000#16 = some (.sbc 2 3) ∧
    decodeWords 0x4010#16 0x0000#16 = some (.sbci 17 0x0#8) ∧
    decodeWords 0x2012#16 0x0000#16 = some (.and 1 2) ∧
    decodeWords 0x700F#16 0x0000#16 = some (.andi 16 0xF#8) ∧
    decodeWords 0x2812#16 0x0000#16 = some (.or 1 2) ∧
    decodeWords 0x6840#16 0x0000#16 = some (.ori 20 0x80#8) ∧
    decodeWords 0x2412#16 0x0000#16 = some (.eor 1 2) ∧
    decodeWords 0x9470#16 0x0000#16 = some (.com 7) ∧
    decodeWords 0x9471#16 0x0000#16 = some (.neg 7) ∧
    decodeWords 0x9493#16 0x0000#16 = some (.inc 9) ∧
    decodeWords 0x949A#16 0x0000#16 = some (.dec 9) ∧
    decodeWords 0x96CF#16 0x0000#16 = some (.adiw 24 0x3F#6) ∧
    decodeWords 0x9721#16 0x0000#16 = some (.sbiw 28 0x1#6) ∧
    decodeWords 0x9C56#16 0x0000#16 = some (.mul 5 6) ∧
    decodeWords 0x0201#16 0x0000#16 = some (.muls 16 17) ∧
    decodeWords 0x0301#16 0x0000#16 = some (.mulsu 16 17) ∧
    decodeWords 0x0309#16 0x0000#16 = some (.fmul 16 17) ∧
    decodeWords 0x0381#16 0x0000#16 = some (.fmuls 16 17) ∧
    decodeWords 0x0389#16 0x0000#16 = some (.fmulsu 16 17) := by decide

theorem test_decode_branch :
    decodeWords 0xC005#16 0x0000#16 = some (.rjmp 0x5#12) ∧
    decodeWords 0xD010#16 0x0000#16 = some (.rcall 0x10#12) ∧
    decodeWords 0x9508#16 0x0000#16 = some (.ret) ∧
    decodeWords 0x9518#16 0x0000#16 = some (.reti) ∧
    decodeWords 0x1045#16 0x0000#16 = some (.cpse 4 5) ∧
    decodeWords 0x1412#16 0x0000#16 = some (.cp 1 2) ∧
    decodeWords 0x0412#16 0x0000#16 = some (.cpc 1 2) ∧
    decodeWords 0x3800#16 0x0000#16 = some (.cpi 16 0x80#8) ∧
    decodeWords 0xFD97#16 0x0000#16 = some (.sbrc 25 7) ∧
    decodeWords 0xFE00#16 0x0000#16 = some (.sbrs 0 0) ∧
    decodeWords 0x9983#16 0x0000#16 = some (.sbic 0x10#5 3) ∧
    decodeWords 0x9BFF#16 0x0000#16 = some (.sbis 0x1F#5 7) := by decide

theorem test_decode_conditional_branch :
    decodeWords 0xF3E9#16 0x0000#16 = some (.brbs 1 0x7D#7) ∧
    decodeWords 0xF5F8#16 0x0000#16 = some (.brbc 0 0x3F#7) := by decide

theorem test_decode_far_branch :
    decodeWords 0x9409#16 0x0000#16 = some (.ijmp) ∧
    decodeWords 0x9509#16 0x0000#16 = some (.icall) ∧
    decodeWords 0x940C#16 0x1ABC#16 = some (.jmp 0x1ABC#22) ∧
    decodeWords 0x940E#16 0x1ABC#16 = some (.call 0x1ABC#22) ∧
    decodeWords 0x9419#16 0x0000#16 = some (.eijmp) ∧
    decodeWords 0x9519#16 0x0000#16 = some (.eicall) := by decide

theorem test_decode_data_transfer :
    decodeWords 0x2E1F#16 0x0000#16 = some (.mov 1 31) ∧
    decodeWords 0xEA05#16 0x0000#16 = some (.ldi 16 0xA5#8) ∧
    decodeWords 0xB62F#16 0x0000#16 = some (.inIo 2 0x3F#6) ∧
    decodeWords 0xBF0F#16 0x0000#16 = some (.outIo 0x3F#6 16) ∧
    decodeWords 0x95C8#16 0x0000#16 = some (.lpm) ∧
    decodeWords 0x9020#16 0x0100#16 = some (.lds 2 0x100#16) ∧
    decodeWords 0x904C#16 0x0000#16 = some (.ldX 4) ∧
    decodeWords 0x904D#16 0x0000#16 = some (.ldXInc 4) ∧
    decodeWords 0x904E#16 0x0000#16 = some (.ldXDec 4) ∧
    decodeWords 0x9049#16 0x0000#16 = some (.ldYInc 4) ∧
    decodeWords 0x904A#16 0x0000#16 = some (.ldYDec 4) ∧
    decodeWords 0xAC5F#16 0x0000#16 = some (.lddY 5 0x3F#6) ∧
    decodeWords 0x9041#16 0x0000#16 = some (.ldZInc 4) ∧
    decodeWords 0x9042#16 0x0000#16 = some (.ldZDec 4) ∧
    decodeWords 0x8051#16 0x0000#16 = some (.lddZ 5 0x1#6) ∧
    decodeWords 0x93F0#16 0x0060#16 = some (.sts 0x60#16 31) ∧
    decodeWords 0x929C#16 0x0000#16 = some (.stX 9) ∧
    decodeWords 0x929D#16 0x0000#16 = some (.stXInc 9) ∧
    decodeWords 0x929E#16 0x0000#16 = some (.stXDec 9) ∧
    decodeWords 0x9299#16 0x0000#16 = some (.stYInc 9) ∧
    decodeWords 0x929A#16 0x0000#16 = some (.stYDec 9) ∧
    decodeWords 0x829A#16 0x0000#16 = some (.stdY 0x2#6 9) ∧
    decodeWords 0x9291#16 0x0000#16 = some (.stZInc 9) ∧
    decodeWords 0x9292#16 0x0000#16 = some (.stZDec 9) ∧
    decodeWords 0xAE97#16 0x0000#16 = some (.stdZ 0x3F#6 9) ∧
    decodeWords 0x931F#16 0x0000#16 = some (.push 17) ∧
    decodeWords 0x911F#16 0x0000#16 = some (.pop 17) ∧
    decodeWords 0x95D8#16 0x0000#16 = some (.elpm) ∧
    decodeWords 0x01CF#16 0x0000#16 = some (.movw 24 30) ∧
    decodeWords 0x9104#16 0x0000#16 = some (.lpmZ 16) ∧
    decodeWords 0x9105#16 0x0000#16 = some (.lpmZInc 16) ∧
    decodeWords 0x95E8#16 0x0000#16 = some (.spm) ∧
    decodeWords 0x9146#16 0x0000#16 = some (.elpmZ 20) ∧
    decodeWords 0x9147#16 0x0000#16 = some (.elpmZInc 20) := by decide

theorem test_decode_bits :
    decodeWords 0x9AC3#16 0x0000#16 = some (.sbi 0x18#5 3) ∧
    decodeWords 0x98FF#16 0x0000#16 = some (.cbi 0x1F#5 7) ∧
    decodeWords 0x9456#16 0x0000#16 = some (.lsr 5) ∧
    decodeWords 0x9457#16 0x0000#16 = some (.ror 5) ∧
    decodeWords 0x9455#16 0x0000#16 = some (.asr 5) ∧
    decodeWords 0x9452#16 0x0000#16 = some (.swap 5) ∧
    decodeWords 0x9468#16 0x0000#16 = some (.bset 6) ∧
    decodeWords 0x9488#16 0x0000#16 = some (.bclr 0) ∧
    decodeWords 0xFA36#16 0x0000#16 = some (.bst 3 6) ∧
    decodeWords 0xF840#16 0x0000#16 = some (.bld 4 0) := by decide

theorem test_decode_mcu :
    decodeWords 0x0000#16 0x0000#16 = some (.nop) ∧
    decodeWords 0x9588#16 0x0000#16 = some (.sleep) ∧
    decodeWords 0x95A8#16 0x0000#16 = some (.wdr) ∧
    decodeWords 0x9598#16 0x0000#16 = some (.brk) := by decide

theorem test_alias_arithmetic :
    [(Instr.sbr 16 0x81#8, 0x6801#16),
      (Instr.cbr 16 0xF#8, 0x7F00#16),
      (Instr.tst 4, 0x2044#16),
      (Instr.clr 4, 0x2444#16),
      (Instr.ser 16, 0xEF0F#16)].all isAlias = true := by decide

theorem test_alias_conditional_branch :
    [(Instr.breq 0x4#7, 0xF021#16),
      (Instr.brne 0x4#7, 0xF421#16),
      (Instr.brcs 0x4#7, 0xF020#16),
      (Instr.brcc 0x4#7, 0xF420#16),
      (Instr.brsh 0x4#7, 0xF420#16),
      (Instr.brlo 0x4#7, 0xF020#16),
      (Instr.brmi 0x4#7, 0xF022#16),
      (Instr.brpl 0x4#7, 0xF422#16),
      (Instr.brge 0x4#7, 0xF424#16),
      (Instr.brlt 0x4#7, 0xF024#16),
      (Instr.brhs 0x4#7, 0xF025#16),
      (Instr.brhc 0x4#7, 0xF425#16),
      (Instr.brts 0x4#7, 0xF026#16),
      (Instr.brtc 0x4#7, 0xF426#16),
      (Instr.brvs 0x4#7, 0xF023#16),
      (Instr.brvc 0x4#7, 0xF423#16),
      (Instr.brie 0x4#7, 0xF027#16),
      (Instr.brid 0x4#7, 0xF427#16)].all isAlias = true := by decide

theorem test_alias_data_transfer :
    [(Instr.ldZ 4, 0x8040#16),
      (Instr.stZ 9, 0x8290#16),
      (Instr.ldY 4, 0x8048#16),
      (Instr.stY 9, 0x8298#16)].all isAlias = true := by decide

theorem test_alias_bits :
    [(Instr.lsl 5, 0x0C55#16),
      (Instr.rol 5, 0x1C55#16)].all isAlias = true := by decide

theorem test_alias_flag_aliases :
    [(Instr.sec, 0x9408#16),
      (Instr.clc, 0x9488#16),
      (Instr.sen, 0x9428#16),
      (Instr.cln, 0x94A8#16),
      (Instr.sez, 0x9418#16),
      (Instr.clz, 0x9498#16),
      (Instr.sei, 0x9478#16),
      (Instr.cli, 0x94F8#16),
      (Instr.ses, 0x9448#16),
      (Instr.cls, 0x94C8#16),
      (Instr.sev, 0x9438#16),
      (Instr.clv, 0x94B8#16),
      (Instr.setT, 0x9468#16),
      (Instr.clt, 0x94E8#16),
      (Instr.seh, 0x9458#16),
      (Instr.clh, 0x94D8#16)].all isAlias = true := by decide

/-- The upper registers, the widest immediates and addresses. -/
theorem test_decode_extremes :
    decodeWords 0x0FFF#16 0#16 = some (.add 31 31) ∧ decodeWords 0x2E1F#16 0#16 = some (.mov 1 31) ∧
    decodeWords 0x940F#16 0x2345#16 = some (.call 0x12345#22) ∧ decodeWords 0xC800#16 0#16 = some (.rjmp 0x800#12) ∧
    decodeWords 0xAC5F#16 0#16 = some (.lddY 5 63#6) ∧ decodeWords 0xF600#16 0#16 = some (.brbc 0 0x40#7) := by decide

/-- The table's numbering of a two-word instruction: the second word in bits 31..16 (STS 0x005D,R16). -/
theorem test_decodeTableWord : decodeTableWord 32 0x005D9300 = some (.sts 0x5D#16 16) := by decide

/-! ### Steps -/

/-- ADD R1,R2 (R128) -/
theorem test_step_add_r1_r2 : after (step (start device [(1, 0x7F#8), (2, 0x01#8)] [(0x0, 0x0C12#16)])) (fun t => decide (
    t.pc = 0x0001#22 ∧ t.reg 1 = 0x80#8 ∧ t.sreg = 0x2C#8)) = true := by decide

/-- ADD R1,R2 (R128) -/
theorem test_step_add_r1_r2_b : after (step (start device [(1, 0xFF#8), (2, 0x01#8)] [(0x0, 0x0C12#16)])) (fun t => decide (
    t.pc = 0x0001#22 ∧ t.reg 1 = 0x00#8 ∧ t.sreg = 0x23#8)) = true := by decide

/-- ADC R3,R4 (R129) -/
theorem test_step_adc_r3_r4 : after (step { start device [(3, 0xFF#8), (4, 0x00#8)] [(0x0, 0x1C34#16)] with sreg := 0x01#8 }) (fun t => decide (
    t.pc = 0x0001#22 ∧ t.reg 3 = 0x00#8 ∧ t.sreg = 0x23#8)) = true := by decide

/-- SUB R16,R17 (R130) -/
theorem test_step_sub_r16_r17 : after (step (start device [(16, 0x00#8), (17, 0x01#8)] [(0x0, 0x1B01#16)])) (fun t => decide (
    t.pc = 0x0001#22 ∧ t.reg 16 = 0xFF#8 ∧ t.sreg = 0x35#8)) = true := by decide

/-- SUBI R16,0x20 (R131) -/
theorem test_step_subi_r16_0x20 : after (step (start device [(16, 0x10#8)] [(0x0, 0x5200#16)])) (fun t => decide (
    t.pc = 0x0001#22 ∧ t.reg 16 = 0xF0#8 ∧ t.sreg = 0x15#8)) = true := by decide

/-- SBC R2,R3 (R132) -/
theorem test_step_sbc_r2_r3 : after (step { start device [(2, 0x01#8), (3, 0x00#8)] [(0x0, 0x0823#16)] with sreg := 0x03#8 }) (fun t => decide (
    t.pc = 0x0001#22 ∧ t.reg 2 = 0x00#8 ∧ t.sreg = 0x02#8)) = true := by decide

/-- SBCI R17,0x00 (R133) -/
theorem test_step_sbci_r17_0x00 : after (step { start device [(17, 0x00#8)] [(0x0, 0x4010#16)] with sreg := 0x03#8 }) (fun t => decide (
    t.pc = 0x0001#22 ∧ t.reg 17 = 0xFF#8 ∧ t.sreg = 0x35#8)) = true := by decide

/-- AND R1,R2 (R134) -/
theorem test_step_and_r1_r2 : after (step { start device [(1, 0xF0#8), (2, 0x3C#8)] [(0x0, 0x2012#16)] with sreg := 0x29#8 }) (fun t => decide (
    t.pc = 0x0001#22 ∧ t.reg 1 = 0x30#8 ∧ t.sreg = 0x21#8)) = true := by decide

/-- ANDI R16,0x0F (R135) -/
theorem test_step_andi_r16_0x0f : after (step (start device [(16, 0xA5#8)] [(0x0, 0x700F#16)])) (fun t => decide (
    t.pc = 0x0001#22 ∧ t.reg 16 = 0x05#8 ∧ t.sreg = 0x00#8)) = true := by decide

/-- OR R1,R2 (R136) -/
theorem test_step_or_r1_r2 : after (step (start device [(1, 0x80#8), (2, 0x01#8)] [(0x0, 0x2812#16)])) (fun t => decide (
    t.pc = 0x0001#22 ∧ t.reg 1 = 0x81#8 ∧ t.sreg = 0x14#8)) = true := by decide

/-- ORI R20,0x80 (R137) -/
theorem test_step_ori_r20_0x80 : after (step { start device [(20, 0x01#8)] [(0x0, 0x6840#16)] with sreg := 0x09#8 }) (fun t => decide (
    t.pc = 0x0001#22 ∧ t.reg 20 = 0x81#8 ∧ t.sreg = 0x15#8)) = true := by decide

/-- EOR R1,R2 (R138) -/
theorem test_step_eor_r1_r2 : after (step (start device [(1, 0xAA#8), (2, 0xFF#8)] [(0x0, 0x2412#16)])) (fun t => decide (
    t.pc = 0x0001#22 ∧ t.reg 1 = 0x55#8 ∧ t.sreg = 0x00#8)) = true := by decide

/-- COM R7 (R139) -/
theorem test_step_com_r7 : after (step (start device [(7, 0x55#8)] [(0x0, 0x9470#16)])) (fun t => decide (
    t.pc = 0x0001#22 ∧ t.reg 7 = 0xAA#8 ∧ t.sreg = 0x15#8)) = true := by decide

/-- NEG R7 (R140) -/
theorem test_step_neg_r7 : after (step (start device [(7, 0x01#8)] [(0x0, 0x9471#16)])) (fun t => decide (
    t.pc = 0x0001#22 ∧ t.reg 7 = 0xFF#8 ∧ t.sreg = 0x35#8)) = true := by decide

/-- INC R9 (R143) -/
theorem test_step_inc_r9 : after (step { start device [(9, 0x7F#8)] [(0x0, 0x9493#16)] with sreg := 0x01#8 }) (fun t => decide (
    t.pc = 0x0001#22 ∧ t.reg 9 = 0x80#8 ∧ t.sreg = 0x0D#8)) = true := by decide

/-- DEC R9 (R144) -/
theorem test_step_dec_r9 : after (step (start device [(9, 0x80#8)] [(0x0, 0x949A#16)])) (fun t => decide (
    t.pc = 0x0001#22 ∧ t.reg 9 = 0x7F#8 ∧ t.sreg = 0x18#8)) = true := by decide

/-- ADIW R24,63 (R148) -/
theorem test_step_adiw_r24_63 : after (step (start device [(24, 0xC1#8), (25, 0xFF#8)] [(0x0, 0x96CF#16)])) (fun t => decide (
    t.pc = 0x0001#22 ∧ t.reg 24 = 0x00#8 ∧ t.reg 25 = 0x00#8 ∧ t.sreg = 0x03#8)) = true := by decide

/-- SBIW R28,1 (R149) -/
theorem test_step_sbiw_r28_1 : after (step (start device [(28, 0x00#8), (29, 0x00#8)] [(0x0, 0x9721#16)])) (fun t => decide (
    t.pc = 0x0001#22 ∧ t.reg 28 = 0xFF#8 ∧ t.reg 29 = 0xFF#8 ∧ t.sreg = 0x15#8)) = true := by decide

/-- MUL R5,R6 (R150) -/
theorem test_step_mul_r5_r6 : after (step (start device [(5, 0xFF#8), (6, 0xFF#8)] [(0x0, 0x9C56#16)])) (fun t => decide (
    t.pc = 0x0001#22 ∧ t.reg 0 = 0x01#8 ∧ t.reg 1 = 0xFE#8 ∧ t.sreg = 0x01#8)) = true := by decide

/-- MULS R16,R17 (R151) -/
theorem test_step_muls_r16_r17 : after (step (start device [(16, 0x80#8), (17, 0x80#8)] [(0x0, 0x0201#16)])) (fun t => decide (
    t.pc = 0x0001#22 ∧ t.reg 0 = 0x00#8 ∧ t.reg 1 = 0x40#8 ∧ t.sreg = 0x00#8)) = true := by decide

/-- MULSU R16,R17 (R152) -/
theorem test_step_mulsu_r16_r17 : after (step (start device [(16, 0xFF#8), (17, 0xFF#8)] [(0x0, 0x0301#16)])) (fun t => decide (
    t.pc = 0x0001#22 ∧ t.reg 0 = 0x01#8 ∧ t.reg 1 = 0xFF#8 ∧ t.sreg = 0x01#8)) = true := by decide

/-- FMUL R16,R17 (R153) -/
theorem test_step_fmul_r16_r17 : after (step (start device [(16, 0x40#8), (17, 0x40#8)] [(0x0, 0x0309#16)])) (fun t => decide (
    t.pc = 0x0001#22 ∧ t.reg 0 = 0x00#8 ∧ t.reg 1 = 0x20#8 ∧ t.sreg = 0x00#8)) = true := by decide

/-- FMULS R16,R17 (R154) -/
theorem test_step_fmuls_r16_r17 : after (step (start device [(16, 0x80#8), (17, 0x80#8)] [(0x0, 0x0381#16)])) (fun t => decide (
    t.pc = 0x0001#22 ∧ t.reg 0 = 0x00#8 ∧ t.reg 1 = 0x80#8 ∧ t.sreg = 0x00#8)) = true := by decide

/-- FMULSU R16,R17 (R155) -/
theorem test_step_fmulsu_r16_r17 : after (step (start device [(16, 0x80#8), (17, 0xFF#8)] [(0x0, 0x0389#16)])) (fun t => decide (
    t.pc = 0x0001#22 ∧ t.reg 0 = 0x00#8 ∧ t.reg 1 = 0x01#8 ∧ t.sreg = 0x01#8)) = true := by decide

/-- CP R1,R2 (R168) -/
theorem test_step_cp_r1_r2 : after (step (start device [(1, 0x05#8), (2, 0x05#8)] [(0x0, 0x1412#16)])) (fun t => decide (
    t.pc = 0x0001#22 ∧ t.reg 1 = 0x05#8 ∧ t.sreg = 0x02#8)) = true := by decide

/-- CPC R1,R2 (R169) -/
theorem test_step_cpc_r1_r2 : after (step { start device [(1, 0x05#8), (2, 0x05#8)] [(0x0, 0x0412#16)] with sreg := 0x02#8 }) (fun t => decide (
    t.pc = 0x0001#22 ∧ t.reg 1 = 0x05#8 ∧ t.sreg = 0x02#8)) = true := by decide

/-- CPI R16,0x80 (R170) -/
theorem test_step_cpi_r16_0x80 : after (step (start device [(16, 0x7F#8)] [(0x0, 0x3800#16)])) (fun t => decide (
    t.pc = 0x0001#22 ∧ t.reg 16 = 0x7F#8 ∧ t.sreg = 0x0D#8)) = true := by decide

/-- RJMP 5 (R163) -/
theorem test_step_rjmp_5 : after (step { start device [] [(0x100, 0xC005#16)] with pc := 0x100#22 }) (fun t => decide (
    t.pc = 0x0106#22 ∧ t.sreg = 0x00#8)) = true := by decide

/-- RCALL 0x10 (R164) -/
theorem test_step_rcall_0x10 : after (step { start device [] [(0x123, 0xD010#16)] with pc := 0x123#22, sp := 0x085F#16 }) (fun t => decide (
    t.pc = 0x0134#22 ∧ t.sreg = 0x00#8 ∧ t.sp = 0x085D#16 ∧ t.peek 2142#16 = some 0x01#8 ∧ t.peek 2143#16 = some 0x24#8)) = true := by decide

/-- RET (R165) -/
theorem test_step_ret : after (step { start device [] [(0x200, 0x9508#16)] with pc := 0x200#22, sp := 0x085D#16, sram := [(0x85E, 0x01#8), (0x85F, 0x24#8)] }) (fun t => decide (
    t.pc = 0x0124#22 ∧ t.sreg = 0x00#8 ∧ t.sp = 0x085F#16)) = true := by decide

/-- RETI (R166) -/
theorem test_step_reti : after (step { start device [] [(0x200, 0x9518#16)] with pc := 0x200#22, sp := 0x085D#16, sram := [(0x85E, 0x01#8), (0x85F, 0x24#8)] }) (fun t => decide (
    t.pc = 0x0124#22 ∧ t.sreg = 0x80#8 ∧ t.sp = 0x085F#16)) = true := by decide

/-- IJMP (R195) -/
theorem test_step_ijmp : after (step { start device [(30, 0x34#8), (31, 0x12#8)] [(0x10, 0x9409#16)] with pc := 0x10#22 }) (fun t => decide (
    t.pc = 0x1234#22 ∧ t.sreg = 0x00#8)) = true := by decide

/-- ICALL (R196) -/
theorem test_step_icall : after (step { start device [(30, 0x34#8), (31, 0x12#8)] [(0x10, 0x9509#16)] with pc := 0x10#22, sp := 0x085F#16 }) (fun t => decide (
    t.pc = 0x1234#22 ∧ t.sreg = 0x00#8 ∧ t.sp = 0x085D#16 ∧ t.peek 2142#16 = some 0x00#8 ∧ t.peek 2143#16 = some 0x11#8)) = true := by decide

/-- JMP 0x1ABC (R197) -/
theorem test_step_jmp_0x1abc : after (step { start device [] [(0x10, 0x940C#16), (0x11, 0x1ABC#16)] with pc := 0x10#22 }) (fun t => decide (
    t.pc = 0x1ABC#22 ∧ t.sreg = 0x00#8)) = true := by decide

/-- CALL 0x1ABC (R198) -/
theorem test_step_call_0x1abc : after (step { start device [] [(0x10, 0x940E#16), (0x11, 0x1ABC#16)] with pc := 0x10#22, sp := 0x085F#16 }) (fun t => decide (
    t.pc = 0x1ABC#22 ∧ t.sreg = 0x00#8 ∧ t.sp = 0x085D#16 ∧ t.peek 2142#16 = some 0x00#8 ∧ t.peek 2143#16 = some 0x12#8)) = true := by decide

/-- CPSE R4,R5 (R167) -/
theorem test_step_cpse_r4_r5 : after (step { start device [(4, 0x07#8), (5, 0x07#8)] [(0x10, 0x1045#16), (0x11, 0x0000#16)] with pc := 0x10#22 }) (fun t => decide (
    t.pc = 0x0012#22 ∧ t.sreg = 0x00#8)) = true := by decide

/-- SBRC R25,7 (R171) -/
theorem test_step_sbrc_r25_7 : after (step { start device [(25, 0x7F#8)] [(0x10, 0xFD97#16), (0x11, 0x940C#16)] with pc := 0x10#22 }) (fun t => decide (
    t.pc = 0x0013#22 ∧ t.sreg = 0x00#8)) = true := by decide

/-- SBRS R0,0 (R172) -/
theorem test_step_sbrs_r0_0 : after (step { start device [(0, 0x01#8)] [(0x10, 0xFE00#16)] with pc := 0x10#22 }) (fun t => decide (
    t.pc = 0x0012#22 ∧ t.sreg = 0x00#8)) = true := by decide

/-- SBIC 0x10,3 (R173) -/
theorem test_step_sbic_0x10_3 : after (step { start device [] [(0x10, 0x9983#16)] with pc := 0x10#22, ioAnswers := [0xF7#8] }) (fun t => decide (
    t.pc = 0x0012#22 ∧ t.sreg = 0x00#8)) = true := by decide

/-- SBIS 0x1F,7 (R174) -/
theorem test_step_sbis_0x1f_7 : after (step { start device [] [(0x10, 0x9BFF#16)] with pc := 0x10#22, ioAnswers := [0x80#8] }) (fun t => decide (
    t.pc = 0x0012#22 ∧ t.sreg = 0x00#8)) = true := by decide

/-- BRBS 1,-3 (R175) -/
theorem test_step_brbs_1_dec_3 : after (step { start device [] [(0x20, 0xF3E9#16)] with pc := 0x20#22, sreg := 0x02#8 }) (fun t => decide (
    t.pc = 0x001E#22 ∧ t.sreg = 0x02#8)) = true := by decide

/-- BRBC 0,63 (R176) -/
theorem test_step_brbc_0_63 : after (step { start device [] [(0x20, 0xF5F8#16)] with pc := 0x20#22 }) (fun t => decide (
    t.pc = 0x0060#22 ∧ t.sreg = 0x00#8)) = true := by decide

/-- EIJMP (R199) -/
theorem test_step_eijmp : after (step { start { device with core := .avr6, flashWords := 0x40000, pcBits := 0x16 } [(30, 0x34#8), (31, 0x12#8)] [(0x10, 0x9419#16)] with pc := 0x10#22, eind := 0x02#8 }) (fun t => decide (
    t.pc = 0x021234#22)) = true := by decide

/-- EICALL (R200) -/
theorem test_step_eicall : after (step { start { device with core := .avr6, flashWords := 0x40000, pcBits := 0x16 } [(30, 0x00#8), (31, 0x80#8)] [(0x12345, 0x9519#16)] with pc := 0x12345#22, sp := 0x085F#16, eind := 0x01#8 }) (fun t => decide (
    t.pc = 0x018000#22 ∧ t.sp = 0x085C#16 ∧ t.peek 2143#16 = some 0x46#8 ∧ t.peek 2142#16 = some 0x23#8 ∧ t.peek 2141#16 = some 0x01#8)) = true := by decide

/-- MOV R1,R31 (R212) -/
theorem test_step_mov_r1_r31 : after (step { start device [(1, 0x00#8), (31, 0xA5#8)] [(0x0, 0x2E1F#16)] with sreg := 0xFF#8 }) (fun t => decide (
    t.pc = 0x0001#22 ∧ t.reg 1 = 0xA5#8 ∧ t.sreg = 0xFF#8)) = true := by decide

/-- LDI R16,0xA5 (R213) -/
theorem test_step_ldi_r16_0xa5 : after (step (start device [] [(0x0, 0xEA05#16)])) (fun t => decide (
    t.pc = 0x0001#22 ∧ t.reg 16 = 0xA5#8 ∧ t.sreg = 0x00#8)) = true := by decide

/-- IN R2,0x3F (R216) -/
theorem test_step_in_r2_0x3f : after (step { start device [] [(0x0, 0xB62F#16)] with sreg := 0xA5#8 }) (fun t => decide (
    t.pc = 0x0001#22 ∧ t.reg 2 = 0xA5#8 ∧ t.sreg = 0xA5#8)) = true := by decide

/-- OUT 0x3F,R16 (R217) -/
theorem test_step_out_0x3f_r16 : after (step (start device [(16, 0x81#8)] [(0x0, 0xBF0F#16)])) (fun t => decide (
    t.pc = 0x0001#22 ∧ t.sreg = 0x81#8)) = true := by decide

/-- LPM (R218) -/
theorem test_step_lpm : after (step (start { device with core := .attiny1x, sramEnd := 0x5f } [(30, 0x21#8), (31, 0x00#8)] [(0x10, 0xBEEF#16), (0x0, 0x95C8#16)])) (fun t => decide (
    t.pc = 0x0001#22 ∧ t.reg 0 = 0xBE#8 ∧ t.sreg = 0x00#8)) = true := by decide

/-- LDS R2,0x0100 (R219) -/
theorem test_step_lds_r2_0x0100 : after (step { start device [] [(0x0, 0x9020#16), (0x1, 0x0100#16)] with sram := [(0x100, 0x5A#8)] }) (fun t => decide (
    t.pc = 0x0002#22 ∧ t.reg 2 = 0x5A#8 ∧ t.sreg = 0x00#8)) = true := by decide

/-- STS 0x0060,R31 (R230) -/
theorem test_step_sts_0x0060_r31 : after (step (start device [(31, 0xEE#8)] [(0x0, 0x93F0#16), (0x1, 0x0060#16)])) (fun t => decide (
    t.pc = 0x0002#22 ∧ t.sreg = 0x00#8 ∧ t.peek 96#16 = some 0xEE#8)) = true := by decide

/-- LD R4,X (R220) -/
theorem test_step_ld_r4_x : after (step { start device [(26, 0x00#8), (27, 0x02#8)] [(0x0, 0x904C#16)] with sram := [(0x1FF, 0x22#8), (0x200, 0x11#8)] }) (fun t => decide (
    t.pc = 0x0001#22 ∧ t.reg 4 = 0x11#8 ∧ t.sreg = 0x00#8 ∧ t.ptr .x = 0x0200#16)) = true := by decide

/-- LD R4,X+ (R221) -/
theorem test_step_ld_r4_x_inc : after (step { start device [(26, 0x00#8), (27, 0x02#8)] [(0x0, 0x904D#16)] with sram := [(0x1FF, 0x22#8), (0x200, 0x11#8)] }) (fun t => decide (
    t.pc = 0x0001#22 ∧ t.reg 4 = 0x11#8 ∧ t.sreg = 0x00#8 ∧ t.ptr .x = 0x0201#16)) = true := by decide

/-- LD R4,-X (R222) -/
theorem test_step_ld_r4_dec_x : after (step { start device [(26, 0x00#8), (27, 0x02#8)] [(0x0, 0x904E#16)] with sram := [(0x1FF, 0x22#8), (0x200, 0x11#8)] }) (fun t => decide (
    t.pc = 0x0001#22 ∧ t.reg 4 = 0x22#8 ∧ t.sreg = 0x00#8 ∧ t.ptr .x = 0x01FF#16)) = true := by decide

/-- LD R4,Y (R223) -/
theorem test_step_ld_r4_y : after (step { start device [(28, 0x00#8), (29, 0x02#8)] [(0x0, 0x8048#16)] with sram := [(0x1FF, 0x22#8), (0x200, 0x11#8)] }) (fun t => decide (
    t.pc = 0x0001#22 ∧ t.reg 4 = 0x11#8 ∧ t.sreg = 0x00#8 ∧ t.ptr .y = 0x0200#16)) = true := by decide

/-- LD R4,Y+ (R224) -/
theorem test_step_ld_r4_y_inc : after (step { start device [(28, 0x00#8), (29, 0x02#8)] [(0x0, 0x9049#16)] with sram := [(0x1FF, 0x22#8), (0x200, 0x11#8)] }) (fun t => decide (
    t.pc = 0x0001#22 ∧ t.reg 4 = 0x11#8 ∧ t.sreg = 0x00#8 ∧ t.ptr .y = 0x0201#16)) = true := by decide

/-- LD R4,-Y (R225) -/
theorem test_step_ld_r4_dec_y : after (step { start device [(28, 0x00#8), (29, 0x02#8)] [(0x0, 0x904A#16)] with sram := [(0x1FF, 0x22#8), (0x200, 0x11#8)] }) (fun t => decide (
    t.pc = 0x0001#22 ∧ t.reg 4 = 0x22#8 ∧ t.sreg = 0x00#8 ∧ t.ptr .y = 0x01FF#16)) = true := by decide

/-- LD R4,Z+ (R227) -/
theorem test_step_ld_r4_z_inc : after (step { start device [(30, 0x00#8), (31, 0x02#8)] [(0x0, 0x9041#16)] with sram := [(0x1FF, 0x22#8), (0x200, 0x11#8)] }) (fun t => decide (
    t.pc = 0x0001#22 ∧ t.reg 4 = 0x11#8 ∧ t.sreg = 0x00#8 ∧ t.ptr .z = 0x0201#16)) = true := by decide

/-- LD R4,-Z (R228) -/
theorem test_step_ld_r4_dec_z : after (step { start device [(30, 0x00#8), (31, 0x02#8)] [(0x0, 0x9042#16)] with sram := [(0x1FF, 0x22#8), (0x200, 0x11#8)] }) (fun t => decide (
    t.pc = 0x0001#22 ∧ t.reg 4 = 0x22#8 ∧ t.sreg = 0x00#8 ∧ t.ptr .z = 0x01FF#16)) = true := by decide

/-- LD R4,Z (R214) -/
theorem test_step_ld_r4_z : after (step { start device [(30, 0x00#8), (31, 0x02#8)] [(0x0, 0x8040#16)] with sram := [(0x1FF, 0x22#8), (0x200, 0x11#8)] }) (fun t => decide (
    t.pc = 0x0001#22 ∧ t.reg 4 = 0x11#8 ∧ t.sreg = 0x00#8 ∧ t.ptr .z = 0x0200#16)) = true := by decide

/-- LDD R5,Y+63 (R226) -/
theorem test_step_ldd_r5_y_inc63 : after (step { start device [(28, 0xC1#8), (29, 0x01#8)] [(0x0, 0xAC5F#16)] with sram := [(0x200, 0x11#8)] }) (fun t => decide (
    t.pc = 0x0001#22 ∧ t.reg 5 = 0x11#8 ∧ t.sreg = 0x00#8 ∧ t.ptr .y = 0x01C1#16)) = true := by decide

/-- LDD R5,Z+1 (R229) -/
theorem test_step_ldd_r5_z_inc1 : after (step (start device [(30, 0xFF#8), (31, 0xFF#8), (0, 0x3C#8)] [(0x0, 0x8051#16)])) (fun t => decide (
    t.pc = 0x0001#22 ∧ t.reg 5 = 0x3C#8 ∧ t.sreg = 0x00#8 ∧ t.ptr .z = 0xFFFF#16)) = true := by decide

/-- ST X,R9 (R231) -/
theorem test_step_st_x_r9 : after (step (start device [(26, 0x00#8), (27, 0x02#8), (9, 0x5C#8)] [(0x0, 0x929C#16)])) (fun t => decide (
    t.pc = 0x0001#22 ∧ t.sreg = 0x00#8 ∧ t.peek 511#16 = none ∧ t.peek 512#16 = some 0x5C#8 ∧ t.ptr .x = 0x0200#16)) = true := by decide

/-- ST X+,R9 (R232) -/
theorem test_step_st_x_inc_r9 : after (step (start device [(26, 0x00#8), (27, 0x02#8), (9, 0x5C#8)] [(0x0, 0x929D#16)])) (fun t => decide (
    t.pc = 0x0001#22 ∧ t.sreg = 0x00#8 ∧ t.peek 511#16 = none ∧ t.peek 512#16 = some 0x5C#8 ∧ t.ptr .x = 0x0201#16)) = true := by decide

/-- ST -X,R9 (R233) -/
theorem test_step_st_dec_x_r9 : after (step (start device [(26, 0x00#8), (27, 0x02#8), (9, 0x5C#8)] [(0x0, 0x929E#16)])) (fun t => decide (
    t.pc = 0x0001#22 ∧ t.sreg = 0x00#8 ∧ t.peek 511#16 = some 0x5C#8 ∧ t.peek 512#16 = none ∧ t.ptr .x = 0x01FF#16)) = true := by decide

/-- ST Y,R9 (R234) -/
theorem test_step_st_y_r9 : after (step (start device [(28, 0x00#8), (29, 0x02#8), (9, 0x5C#8)] [(0x0, 0x8298#16)])) (fun t => decide (
    t.pc = 0x0001#22 ∧ t.sreg = 0x00#8 ∧ t.peek 511#16 = none ∧ t.peek 512#16 = some 0x5C#8 ∧ t.ptr .y = 0x0200#16)) = true := by decide

/-- ST Y+,R9 (R235) -/
theorem test_step_st_y_inc_r9 : after (step (start device [(28, 0x00#8), (29, 0x02#8), (9, 0x5C#8)] [(0x0, 0x9299#16)])) (fun t => decide (
    t.pc = 0x0001#22 ∧ t.sreg = 0x00#8 ∧ t.peek 511#16 = none ∧ t.peek 512#16 = some 0x5C#8 ∧ t.ptr .y = 0x0201#16)) = true := by decide

/-- ST -Y,R9 (R236) -/
theorem test_step_st_dec_y_r9 : after (step (start device [(28, 0x00#8), (29, 0x02#8), (9, 0x5C#8)] [(0x0, 0x929A#16)])) (fun t => decide (
    t.pc = 0x0001#22 ∧ t.sreg = 0x00#8 ∧ t.peek 511#16 = some 0x5C#8 ∧ t.peek 512#16 = none ∧ t.ptr .y = 0x01FF#16)) = true := by decide

/-- ST Z+,R9 (R238) -/
theorem test_step_st_z_inc_r9 : after (step (start device [(30, 0x00#8), (31, 0x02#8), (9, 0x5C#8)] [(0x0, 0x9291#16)])) (fun t => decide (
    t.pc = 0x0001#22 ∧ t.sreg = 0x00#8 ∧ t.peek 511#16 = none ∧ t.peek 512#16 = some 0x5C#8 ∧ t.ptr .z = 0x0201#16)) = true := by decide

/-- ST -Z,R9 (R239) -/
theorem test_step_st_dec_z_r9 : after (step (start device [(30, 0x00#8), (31, 0x02#8), (9, 0x5C#8)] [(0x0, 0x9292#16)])) (fun t => decide (
    t.pc = 0x0001#22 ∧ t.sreg = 0x00#8 ∧ t.peek 511#16 = some 0x5C#8 ∧ t.peek 512#16 = none ∧ t.ptr .z = 0x01FF#16)) = true := by decide

/-- ST Z,R9 (R215) -/
theorem test_step_st_z_r9 : after (step (start device [(30, 0x00#8), (31, 0x02#8), (9, 0x5C#8)] [(0x0, 0x8290#16)])) (fun t => decide (
    t.pc = 0x0001#22 ∧ t.sreg = 0x00#8 ∧ t.peek 511#16 = none ∧ t.peek 512#16 = some 0x5C#8 ∧ t.ptr .z = 0x0200#16)) = true := by decide

/-- STD Y+2,R9 (R237) -/
theorem test_step_std_y_inc2_r9 : after (step (start device [(28, 0x00#8), (29, 0x02#8), (9, 0x5C#8)] [(0x0, 0x829A#16)])) (fun t => decide (
    t.pc = 0x0001#22 ∧ t.sreg = 0x00#8 ∧ t.peek 514#16 = some 0x5C#8 ∧ t.ptr .y = 0x0200#16)) = true := by decide

/-- STD Z+63,R9 (R240) -/
theorem test_step_std_z_inc63_r9 : after (step (start device [(30, 0x00#8), (31, 0x02#8), (9, 0x5C#8)] [(0x0, 0xAE97#16)])) (fun t => decide (
    t.pc = 0x0001#22 ∧ t.sreg = 0x00#8 ∧ t.peek 575#16 = some 0x5C#8 ∧ t.ptr .z = 0x0200#16)) = true := by decide

/-- PUSH R17 (R241) -/
theorem test_step_push_r17 : after (step { start device [(17, 0xC3#8)] [(0x0, 0x931F#16)] with sp := 0x085F#16 }) (fun t => decide (
    t.pc = 0x0001#22 ∧ t.sreg = 0x00#8 ∧ t.sp = 0x085E#16 ∧ t.peek 2143#16 = some 0xC3#8)) = true := by decide

/-- POP R17 (R242) -/
theorem test_step_pop_r17 : after (step { start device [] [(0x0, 0x911F#16)] with sp := 0x085E#16, sram := [(0x85F, 0xC3#8)] }) (fun t => decide (
    t.pc = 0x0001#22 ∧ t.reg 17 = 0xC3#8 ∧ t.sreg = 0x00#8 ∧ t.sp = 0x085F#16)) = true := by decide

/-- MOVW R24,R30 (R244) -/
theorem test_step_movw_r24_r30 : after (step (start device [(30, 0x34#8), (31, 0x12#8)] [(0x0, 0x01CF#16)])) (fun t => decide (
    t.pc = 0x0001#22 ∧ t.reg 24 = 0x34#8 ∧ t.reg 25 = 0x12#8 ∧ t.sreg = 0x00#8)) = true := by decide

/-- LPM R16,Z (R245) -/
theorem test_step_lpm_r16_z : after (step (start device [(30, 0x01#8), (31, 0x01#8)] [(0x80, 0xBEEF#16), (0x0, 0x9104#16)])) (fun t => decide (
    t.pc = 0x0001#22 ∧ t.reg 16 = 0xBE#8 ∧ t.sreg = 0x00#8 ∧ t.ptr .z = 0x0101#16)) = true := by decide

/-- LPM R16,Z+ (R246) -/
theorem test_step_lpm_r16_z_inc : after (step (start device [(30, 0x01#8), (31, 0x01#8)] [(0x80, 0xBEEF#16), (0x0, 0x9105#16)])) (fun t => decide (
    t.pc = 0x0001#22 ∧ t.reg 16 = 0xBE#8 ∧ t.sreg = 0x00#8 ∧ t.ptr .z = 0x0102#16)) = true := by decide

/-- ELPM (R243) -/
theorem test_step_elpm : after (step { start { device with core := .atmega128, flashWords := 0x10000 } [(30, 0x01#8), (31, 0x00#8)] [(0x8000, 0xCAFE#16), (0x0, 0x95D8#16)] with rampz := 0x01#8 }) (fun t => decide (
    t.pc = 0x0001#22 ∧ t.reg 0 = 0xCA#8 ∧ t.sreg = 0x00#8)) = true := by decide

/-- ELPM R20,Z (R248) -/
theorem test_step_elpm_r20_z : after (step { start { device with core := .atmega128, flashWords := 0x10000 } [(30, 0x00#8), (31, 0x00#8)] [(0x8000, 0xCAFE#16), (0x0, 0x9146#16)] with rampz := 0x01#8 }) (fun t => decide (
    t.pc = 0x0001#22 ∧ t.reg 20 = 0xFE#8 ∧ t.sreg = 0x00#8)) = true := by decide

/-- ELPM R20,Z+ (R249) -/
theorem test_step_elpm_r20_z_inc : after (step (start { device with core := .atmega128, flashWords := 0x10000 } [(30, 0xFF#8), (31, 0xFF#8)] [(0x7FFF, 0x12AB#16), (0x0, 0x9147#16)])) (fun t => decide (
    t.pc = 0x0001#22 ∧ t.reg 20 = 0x12#8 ∧ t.sreg = 0x00#8 ∧ t.rampz = 0x01#8 ∧ t.ptr .z = 0x0000#16)) = true := by decide

/-- SPM (R247) -/
theorem test_step_spm : after (step (start { device with spmModel := .literal } [(30, 0x01#8), (31, 0x01#8), (1, 0x12#8), (0, 0x34#8)] [(0x0, 0x95E8#16)])) (fun t => decide (
    t.pc = 0x0001#22 ∧ t.progWord? 0x0080 = some 0x1234#16)) = true := by decide

/-- SBI 0x18,3 (R260) -/
theorem test_step_sbi_0x18_3 : after (step { start device [] [(0x0, 0x9AC3#16)] with ioAnswers := [0x41#8] }) (fun t => decide (
    t.pc = 0x0001#22 ∧ t.sreg = 0x00#8 ∧ t.events.head? = some (EnvEvent.ioWrite 0x18#6 0x49#8))) = true := by decide

/-- CBI 0x1F,7 (R261) -/
theorem test_step_cbi_0x1f_7 : after (step { start device [] [(0x0, 0x98FF#16)] with ioAnswers := [0xFF#8] }) (fun t => decide (
    t.pc = 0x0001#22 ∧ t.sreg = 0x00#8 ∧ t.events.head? = some (EnvEvent.ioWrite 0x1F#6 0x7F#8))) = true := by decide

/-- LSR R5 (R263) -/
theorem test_step_lsr_r5 : after (step (start device [(5, 0x01#8)] [(0x0, 0x9456#16)])) (fun t => decide (
    t.pc = 0x0001#22 ∧ t.reg 5 = 0x00#8 ∧ t.sreg = 0x1B#8)) = true := by decide

/-- ROR R5 (R265) -/
theorem test_step_ror_r5 : after (step (start device [(5, 0x01#8)] [(0x0, 0x9457#16)])) (fun t => decide (
    t.pc = 0x0001#22 ∧ t.reg 5 = 0x00#8 ∧ t.sreg = 0x1B#8)) = true := by decide

/-- ASR R5 (R266) -/
theorem test_step_asr_r5 : after (step (start device [(5, 0x81#8)] [(0x0, 0x9455#16)])) (fun t => decide (
    t.pc = 0x0001#22 ∧ t.reg 5 = 0xC0#8 ∧ t.sreg = 0x15#8)) = true := by decide

/-- SWAP R5 (R267) -/
theorem test_step_swap_r5 : after (step { start device [(5, 0xA5#8)] [(0x0, 0x9452#16)] with sreg := 0xFF#8 }) (fun t => decide (
    t.pc = 0x0001#22 ∧ t.reg 5 = 0x5A#8 ∧ t.sreg = 0xFF#8)) = true := by decide

/-- BSET 6 (R268) -/
theorem test_step_bset_6 : after (step (start device [] [(0x0, 0x9468#16)])) (fun t => decide (
    t.pc = 0x0001#22 ∧ t.sreg = 0x40#8)) = true := by decide

/-- BCLR 0 (R269) -/
theorem test_step_bclr_0 : after (step { start device [] [(0x0, 0x9488#16)] with sreg := 0xFF#8 }) (fun t => decide (
    t.pc = 0x0001#22 ∧ t.sreg = 0xFE#8)) = true := by decide

/-- BST R3,6 (R270) -/
theorem test_step_bst_r3_6 : after (step (start device [(3, 0x40#8)] [(0x0, 0xFA36#16)])) (fun t => decide (
    t.pc = 0x0001#22 ∧ t.sreg = 0x40#8)) = true := by decide

/-- BLD R4,0 (R271) -/
theorem test_step_bld_r4_0 : after (step { start device [(4, 0xFE#8)] [(0x0, 0xF840#16)] with sreg := 0x40#8 }) (fun t => decide (
    t.pc = 0x0001#22 ∧ t.reg 4 = 0xFF#8 ∧ t.sreg = 0x40#8)) = true := by decide

/-- NOP (R300) -/
theorem test_step_nop : after (step { start device [] [(0x0, 0x0000#16)] with sreg := 0xA5#8 }) (fun t => decide (
    t.pc = 0x0001#22 ∧ t.sreg = 0xA5#8)) = true := by decide

/-- WDR (R302) -/
theorem test_step_wdr : after (step { start device [] [(0x0, 0x95A8#16)] with sreg := 0xA5#8 }) (fun t => decide (
    t.pc = 0x0001#22 ∧ t.sreg = 0xA5#8)) = true := by decide

/-- SLEEP (R301) -/
theorem test_step_sleep : after (step { start { device with sleepModel := .wait } [] [(0x10, 0x9588#16)] with pc := 0x10#22 }) (fun t => decide (
    t.pc = 0x0011#22 ∧ t.runState = RunState.sleeping)) = true := by decide

/-- BREAK (R303) -/
theorem test_step_break : after (step { start { device with breakModel := .stop } [] [(0x20, 0x9598#16)] with pc := 0x20#22 }) (fun t => decide (
    t.pc = 0x0020#22 ∧ t.runState = RunState.stopped)) = true := by decide

/-! ### A state for the hypotheses of every statement that has some -/

/-- A core without SP: AT90S1200, 512 program words, a stack of three addresses. -/
def small : Config := ⟨.at90s1200, 512, 9, 0x5F, 3, 4, 1, .wait, .nop, .refuse⟩

/-- A core with three return bytes. -/
def large : Config := { Config.resetDevice with sramEnd := 0x21FF }

/-- The device with interrupts enabled and request 3 and 5 pending. -/
def asked : State :=
  { start device [] [(0, 0x9518#16)] with
    sreg := 0x80#8, sp := 0x085F#16, boundaries := [⟨false, [5, 3]⟩] }

theorem test_witness_DecodeOfEncode : (Instr.call 0x3FFFFF#22).wellFormed = true ∧ (Instr.movw 30 0).wellFormed = true := by decide

theorem test_witness_EncodeOfDecode :
    decodeWords 0x9300#16 0xFFFF#16 = some (.sts 0xFFFF#16 16) ∧ decodeWords 0x0000#16 0x1234#16 = some .nop := by decide

/-- One word of each class of R107. -/
theorem test_witness_ReservedWords : ([0x0001#16, 0x9003#16, 0x9207#16, 0x9404#16, 0x9528#16, 0x9429#16, 0xF808#16].all
    fun w => (decodeWords w 0#16).isNone) = true ∧ (decodeWords 0xF800#16 0#16).isSome = true := by decide

theorem test_witness_ProgramCounterWraps : State.reset.cfg.pcBits ≤ 22 ∧ device.pcBits ≤ 22 := by decide

theorem test_witness_SignFollowsNAndV :
    ∃ t, exec (.add 0 1) State.reset = .next t ∧ flagN ∈ flagsWritten (.add 0 1) ∧ flagS ∈ flagsWritten (.add 0 1) :=
  ⟨_, rfl, by decide⟩

theorem test_witness_TwoByteChains : (24 : Reg) ≠ 22 + 1 ∧ (31 : Reg) ≠ 31 + 1 := by decide

/-- R0 = 0, R1 = 0xFF; NOP at word 1. -/
def skipOne : State := start device [(1, 0xFF#8)] [(1, 0x0000#16)]

/-- JMP at word 1. -/
def skipTwo : State := start device [(1, 0xFF#8)] [(1, 0x940C#16)]

theorem test_witness_RegisterSkipResults_false :
    skipOne.reg 0 ≠ skipOne.reg 1 ∧ (skipOne.reg 1).getLsbD 7 = true ∧ (skipOne.reg 0).getLsbD 0 = false := by decide

theorem test_witness_RegisterSkipResults_one : SkipsWords 1 skipOne (skipOne.pc.toNat + 1) ∧ skipOne.reg 0 = skipOne.reg 2 :=
  ⟨⟨0x0000#16, by decide, .inl (by decide)⟩, by decide⟩

theorem test_witness_RegisterSkipResults_two : SkipsWords 2 skipTwo (skipTwo.pc.toNat + 1) ∧ skipTwo.reg 0 = skipTwo.reg 2 :=
  ⟨⟨0x940C#16, by decide, .inr ⟨rfl, by decide, .jmp 0#22, by decide, by decide⟩⟩, by decide⟩

/-- The next peripheral read gives 0x01. -/
def answered (s : State) : State := { s with ioAnswers := [0x01#8] }

theorem test_witness_IoSkipResults :
    (((answered skipOne).ioRead ((0#5).setWidth 6)).1.getLsbD 0 = true ∧ ((answered skipOne).ioRead ((0#5).setWidth 6)).1.getLsbD 7 = false) ∧
    SkipsWords 1 (answered skipOne) ((answered skipOne).pc.toNat + 1) ∧
    SkipsWords 2 (answered skipTwo) ((answered skipTwo).pc.toNat + 1) :=
  ⟨by decide, ⟨0x0000#16, by decide, .inl (by decide)⟩,
    ⟨0x940C#16, by decide, .inr ⟨rfl, by decide, .jmp 0#22, by decide, by decide⟩⟩⟩

/-- One program word only. -/
def oneWord : State := start { device with flashWords := 1 } [] [(0, 0x1000#16)]

/-- JMP at word 1 on a core that has no JMP. -/
def noJmp : State := start { device with core := .at90s } [] [(1, 0x940C#16)]

theorem test_witness_SkipStops : oneWord.cfg.flashWords ≤ (oneWord.pc.toNat + 1) % 2 ^ oneWord.cfg.pcBits ∧
    noJmp.progWord? ((noJmp.pc.toNat + 1) % 2 ^ noJmp.cfg.pcBits) = some 0x940C#16 ∧ isLongWord 0x940C#16 = true ∧
    decodeWords 0x940C#16 0#16 = some (.jmp 0#22) ∧ (Instr.jmp 0#22).implementedOn noJmp.cfg.core = false := by decide

theorem test_witness_SkipStops_conditions : ∀ s ∈ [answered oneWord, answered noJmp],
    decide (s.reg 2 = s.reg 3) = true ∧ (!(s.reg 2).getLsbD 0) = true ∧ ({ s with regs := s.regs.set 2 0x80#8 }.reg 2).getLsbD 7 = true ∧
    (!(s.ioRead ((31#5).setWidth 6)).1.getLsbD 7) = true ∧ (s.ioRead ((31#5).setWidth 6)).1.getLsbD 0 = true := by decide

/-- SP at the last byte of SRAM, two and three return bytes. -/
def stacked : State := { start device [] [] with sp := 0x085F#16 }

def stacked3 : State := { start large [] [] with sp := 0x21FF#16 }

theorem test_witness_CallsOnTheDataStack : CanPush stacked.cfg.retBytes stacked ∧ CanPush stacked3.cfg.retBytes stacked3 := by
  unfold CanPush; decide

theorem test_witness_ReturnsFromTheDataStack : CanPop stacked.cfg.retBytes { stacked with sp := 0x085D#16 } ∧
    CanPop stacked3.cfg.retBytes { stacked3 with sp := 0x21FC#16 } := by
  unfold CanPop; decide

theorem test_witness_ReturnsFromTheDataStack_bytes :
    StackHolds { stacked with sp := 0x085D#16, sram := [(0x085E, 0x12#8), (0x085F, 0x34#8)] } 1 0x12#8 ∧
    StackHolds { stacked with sp := 0x085D#16, sram := [(0x085E, 0x12#8), (0x085F, 0x34#8)] } 2 0x34#8 := by
  unfold StackHolds; decide

/-- The core without SP, with no address and with three addresses stacked. -/
def hwEmpty : State := start small [] []

def hwFull : State := { start small [] [] with hwStack := [1#22, 2#22, 0x1FF#22] }

theorem test_witness_HardwareStackCallsAndReturns : hwEmpty.cfg.hasSp = false ∧ hwEmpty.hwStack.length < hwEmpty.cfg.hwStackDepth ∧
    hwEmpty.hwStack = [] ∧ hwFull.cfg.hasSp = false ∧ hwFull.cfg.hwStackDepth ≤ hwFull.hwStack.length ∧
    hwFull.hwStack = 1#22 :: [2#22, 0x1FF#22] := by decide

theorem test_witness_CallThenReturn : (∀ s ∈ [stacked, stacked3, hwEmpty], s.cfg.ok = true ∧ s.pc.toNat < 2 ^ s.cfg.pcBits ∧
    (s.cfg.hasSp = true → ∀ j, j < s.cfg.retBytes → dataRegion s.cfg (s.sp - BitVec.ofNat 16 j) = .sram) ∧
    (s.cfg.hasSp = false → s.hwStack.length < s.cfg.hwStackDepth)) := by decide

/-- One SRAM byte written, at the last address. -/
def oneByte : State := { start device [] [] with sram := [(0x085F, 0xAB#8)] }

theorem test_witness_MemReadByRegion : (0x1F#16).toNat ≤ 0x1F ∧ (hwEmpty.cfg.hasSp = false ∧ 0x1F < (0x20#16).toNat) ∧
    (oneByte.cfg.hasSp = true ∧ 0x1F < (0x20#16).toNat ∧ (0x5F#16).toNat ≤ 0x5F) ∧
    (oneByte.cfg.hasSp = true ∧ 0x60 ≤ (0x085F#16).toNat ∧ (0x085F#16).toNat ≤ oneByte.cfg.sramEnd ∧
      oneByte.sramByte? 0x085F#16 = some 0xAB#8 ∧ oneByte.sramByte? 0x0060#16 = none) ∧
    (oneByte.cfg.hasSp = true ∧ 0x60 ≤ (0x0860#16).toNat ∧ oneByte.cfg.sramEnd < (0x0860#16).toNat) := by decide

theorem test_witness_MemWriteByRegion : (0x00#16).toNat ≤ 0x1F ∧ (hwEmpty.cfg.hasSp = false ∧ 0x1F < (0xFFFF#16).toNat) ∧
    (stacked.cfg.hasSp = true ∧ 0x1F < (0x5F#16).toNat ∧ (0x5F#16).toNat ≤ 0x5F) ∧
    (stacked.cfg.hasSp = true ∧ 0x60 ≤ (0x0060#16).toNat ∧ (0x0060#16).toNat ≤ stacked.cfg.sramEnd) ∧
    (stacked.cfg.hasSp = true ∧ 0x60 ≤ (0xFFFF#16).toNat ∧ stacked.cfg.sramEnd < (0xFFFF#16).toNat) := by decide

/-- X, Y and Z at the first SRAM byte, at SREG and at a register. -/
def pointers : State := start device [(26, 0x60#8), (28, 0x5F#8), (30, 0x1F#8)] []

theorem test_witness_PlainLoadResults : dataRegion pointers.cfg (pointers.pair 26) ≠ .unimplemented ∧
    dataRegion pointers.cfg (pointers.pair 28) ≠ .unimplemented ∧ dataRegion pointers.cfg (pointers.pair 30) ≠ .unimplemented ∧
    dataRegion pointers.cfg (pointers.pair 28 + (63#6).setWidth 16) ≠ .unimplemented ∧
    dataRegion pointers.cfg (pointers.pair 30 + (63#6).setWidth 16) ≠ .unimplemented ∧
    dataRegion pointers.cfg 0x085F#16 ≠ .unimplemented := by decide

theorem test_witness_PlainStoreResults : dataRegion pointers.cfg (pointers.pair 26) ≠ .unimplemented ∧
    dataRegion pointers.cfg (pointers.pair 28) ≠ .unimplemented ∧ dataRegion pointers.cfg (pointers.pair 30) ≠ .unimplemented ∧
    dataRegion pointers.cfg (pointers.pair 28 + (1#6).setWidth 16) ≠ .unimplemented ∧
    dataRegion pointers.cfg (pointers.pair 30 + (1#6).setWidth 16) ≠ .unimplemented ∧
    dataRegion pointers.cfg 0x005D#16 ≠ .unimplemented := by decide

theorem test_witness_StepLoadResults : (∀ p ∈ [Ptr.x, .y], p.has 0 = false ∧ p.owns (pointers.ptr p) = false ∧
    dataRegion pointers.cfg (pointers.ptr p) ≠ .unimplemented ∧ p.owns (pointers.decAddr p) = false ∧
    dataRegion pointers.cfg (pointers.decAddr p) ≠ .unimplemented) ∧ Ptr.z.has 29 = false ∧
    Ptr.z.owns ((start device [(30, 0x20#8)] []).ptr .z) = false ∧
    dataRegion device ((start device [(30, 0x20#8)] []).ptr .z) ≠ .unimplemented := by decide

theorem test_witness_StepStoreResults : Ptr.y.has 27 = false ∧ Ptr.y.owns (pointers.ptr .y) = false ∧
    dataRegion pointers.cfg (pointers.ptr .y) ≠ .unimplemented ∧ Ptr.y.owns (pointers.decAddr .y) = false ∧
    dataRegion pointers.cfg (pointers.decAddr .y) ≠ .unimplemented ∧ Ptr.x.has 25 = false ∧
    Ptr.x.owns (pointers.ptr .x) = false ∧ dataRegion pointers.cfg (pointers.ptr .x) ≠ .unimplemented ∧ Ptr.z.has 29 = false ∧
    Ptr.z.owns ((start device [(30, 0x20#8)] []).decAddr .z) = true ∧
    Ptr.z.owns ((start device [(30, 0x1E#8)] []).decAddr .z) = false ∧
    dataRegion device ((start device [(30, 0x1E#8)] []).decAddr .z) ≠ .unimplemented := by decide

/-- X points to its own low byte, Y one past its own high byte. -/
def selfPointers : State := start device [(26, 26#8), (28, 30#8), (30, 31#8)] []

theorem test_witness_PointerConflictsRefused : (26 : Reg) = Ptr.x.lo ∧ (31 : Reg) = Ptr.z.lo + 1 ∧
    ((0 : Reg) ≠ Ptr.x.lo ∧ (0 : Reg) ≠ Ptr.x.lo + 1 ∧ (selfPointers.pair 26).toNat = Ptr.x.lo.val) ∧
    ((0 : Reg) ≠ Ptr.y.lo ∧ (0 : Reg) ≠ Ptr.y.lo + 1 ∧ (selfPointers.pair 28 - 1#16).toNat = Ptr.y.lo.val + 1) ∧
    ((0 : Reg) ≠ Ptr.z.lo ∧ (0 : Reg) ≠ Ptr.z.lo + 1 ∧ (selfPointers.pair 30).toNat = Ptr.z.lo.val + 1) := by decide

theorem test_witness_UnimplementedDataStops : NoDataAt device 0x0860#16 ∧ NoDataAt small 0x20#16 ∧ ¬ NoDataAt device 0x085F#16 ∧
    ¬ NoDataAt small 0x1F#16 ∧ Ptr.x.has 25 = false ∧
    NoDataAt device ((start device [(26, 0x61#8), (27, 0x08#8)] []).pair 26 - 1#16) := by unfold NoDataAt; decide

theorem test_witness_UnimplementedDataStops_stack : device.hasSp = true ∧ device.retBytes = 2 ∧
    NoDataAt device (0x0860#16 - BitVec.ofNat 16 0) ∧
    (¬ NoDataAt device (0x0000#16 - BitVec.ofNat 16 0) ∧ NoDataAt device (0x0000#16 - BitVec.ofNat 16 1)) ∧
    { asked with sp := 0x0000#16 }.nextAction = .irq 3 ∧
    (¬ NoDataAt device (0x085E#16 + BitVec.ofNat 16 1) ∧ NoDataAt device (0x085E#16 + BitVec.ofNat 16 2)) := by
  unfold NoDataAt; decide

theorem test_witness_PushAndPopResults : dataRegion stacked.cfg stacked.sp ≠ .unimplemented ∧
    (dataRegion stacked.cfg ((0x085E#16 : Word) + 1#16) ≠ .unimplemented ∧ (0x085E#16 : Word) + 1#16 ≠ 0x5D#16 ∧
      (0x085E#16 : Word) + 1#16 ≠ 0x5E#16) ∧
    (stacked.cfg.hasSp = true ∧ (0x5C#16 : Word) + 1#16 = 0x5D#16 ∧ (0x5D#16 : Word) + 1#16 = 0x5E#16) := by decide

/-- Z and RAMPZ past a small program memory. -/
def farZ : State := { start { large with flashWords := 0x4000 } [(31, 0x80#8)] [] with rampz := 1#8 }

theorem test_witness_ProgramLoadResults :
    ((pointers.pair 30).toNat / 2 < pointers.cfg.flashWords ∧
      (pointers.rampz.toNat * 65536 + (pointers.pair 30).toNat) / 2 < pointers.cfg.flashWords ∧ (29 : Reg) ≠ 30 ∧ (29 : Reg) ≠ 31) ∧
    farZ.cfg.flashWords ≤ (farZ.pair 30).toNat / 2 ∧
    farZ.cfg.flashWords ≤ (farZ.rampz.toNat * 65536 + (farZ.pair 30).toNat) / 2 := by decide

theorem test_witness_SpmResults : (State.reset.cfg.spmModel = .literal ∧ (State.reset.pair 30).toNat / 2 < State.reset.cfg.flashWords) ∧
    (farZ.cfg.spmModel = .literal ∧ farZ.cfg.flashWords ≤ (farZ.pair 30).toNat / 2) ∧ stacked.cfg.spmModel = .refuse := by decide

theorem test_witness_McuControlResults : State.reset.cfg.sleepModel = .wait ∧
    (start { device with sleepModel := .nop } [] []).cfg.sleepModel = .nop ∧ stacked.cfg.sleepModel = .refuse ∧
    (start { device with breakModel := .stop } [] []).cfg.breakModel = .stop ∧ State.reset.cfg.breakModel = .nop ∧
    stacked.cfg.breakModel = .refuse := by decide

/-- JMP 0x1ABC at the last program word, its second word at word 0. -/
def wrapped : State := { start device [] [(0x3FFF, 0x940C#16), (0, 0x1ABC#16)] with pc := 0x3FFF#22 }

theorem test_witness_StepRunsDecodedInstruction : wrapped.nextAction = .run ∧ wrapped.progWord? wrapped.pc.toNat = some 0x940C#16 ∧
    wrapped.progWord? ((wrapped.pc.toNat + 1) % 2 ^ wrapped.cfg.pcBits) = some 0x1ABC#16 ∧
    decodeWords 0x940C#16 0x1ABC#16 = some (.jmp 0x1ABC#22) ∧ (Instr.jmp 0x1ABC#22).implementedOn wrapped.cfg.core = true := by decide

/-- A long word last in program memory, a reserved word, and a word of another core. -/
def cut : State := start { device with flashWords := 1 } [] [(0, 0x940C#16)]

def reserved : State := start device [] [(0, 0x95F8#16)]

theorem test_witness_FetchStops : (∀ s ∈ [cut, reserved, { oneWord with pc := 1#22 }, start small [] [(0, 0x9C00#16)]], s.nextAction = .run) ∧
    oneWord.cfg.flashWords ≤ (1#22).toNat ∧
    (cut.progWord? cut.pc.toNat = some 0x940C#16 ∧ isLongWord 0x940C#16 = true ∧
      cut.cfg.flashWords ≤ (cut.pc.toNat + 1) % 2 ^ cut.cfg.pcBits) ∧
    reserved.progWord? reserved.pc.toNat = some 0x95F8#16 ∧
    (decodeWords 0x9C00#16 0#16 = some (.mul 0 0) ∧ (Instr.mul 0 0).implementedOn small.core = false) := by decide

theorem test_witness_FetchStops_reserved : ReservedWord 0x95F8#16 := by unfold ReservedWord; decide

theorem test_witness_InterruptTakenIff : asked.nextAction = .irq 3 ∧ (3 ∈ asked.currentBoundary.irqs ∧ 1 ≤ 3 ∧ 3 < asked.cfg.nVectors) ∧
    { asked with irqShadow := true }.nextAction = .run ∧ { asked with sreg := 0#8 }.nextAction = .run := by decide

theorem test_witness_InterruptEntry : asked.nextAction = .irq 3 ∧ CanPush asked.cfg.retBytes asked ∧
    ∀ j, j < asked.cfg.retBytes → dataRegion asked.cfg (asked.sp - BitVec.ofNat 16 j) ≠ .io := by
  unfold CanPush; decide

theorem test_witness_InterruptEntryOnHardwareStack :
    (∀ s ∈ [hwEmpty, hwFull], { s with sreg := 0x80#8, boundaries := [⟨false, [1]⟩] }.nextAction = .irq 1 ∧ s.cfg.hasSp = false) ∧
    hwEmpty.hwStack.length < hwEmpty.cfg.hwStackDepth ∧ hwFull.cfg.hwStackDepth ≤ hwFull.hwStack.length := by decide

theorem test_witness_InterruptThenReti : asked.nextAction = .irq 3 ∧ asked.cfg.ok = true ∧ asked.pc.toNat < 2 ^ asked.cfg.pcBits ∧
    asked.cfg.hasSp = true ∧ ∀ j, j < asked.cfg.retBytes → dataRegion asked.cfg (asked.sp - BitVec.ofNat 16 j) = .sram := by decide

/-- The power-on reset and a reset event end in the same event (R340). -/
theorem test_reset_told : State.reset.events = [.reset] ∧
    after (step { asked with boundaries := [⟨true, []⟩] }) (fun t => decide (t.events = [.reset, .reset])) = true := by decide

theorem test_witness_ResetEvent : { asked with boundaries := [⟨true, [3]⟩] }.currentBoundary.reset = true := by decide

theorem test_witness_SleepingStoppedAndEndedRuns : ∀ r ∈ [RunState.sleeping, .stopped],
    { stacked with runState := r }.currentBoundary.reset = false ∧ { stacked with runState := r }.runState = r ∧
      stacked.flag flagI = false := by decide

/-- RJMP -1 at word 1. -/
def ended : State := { start device [] [(1, 0xCFFF#16)] with pc := 1#22 }

theorem test_witness_SleepingStoppedAndEndedRuns_ended : ended.currentBoundary.reset = false ∧ ended.Ended 1#22 ∧
    (1#22).toNat < 2 ^ ended.cfg.pcBits ∧ { stacked with runState := .sleeping }.Hung := by
  unfold State.Ended State.Hung; decide

/-- SEI at word 0. -/
def enabling : State := start device [] [(0, 0x9478#16)]

theorem test_witness_ShadowAfterInstruction : enabling.nextAction = .run ∧ enabling.fetch = .next (.bset 7) ∧
    ∃ t, step enabling = .next t ∧ t.irqShadow = true :=
  ⟨by decide, rfl, exists_of_after (p := fun t => t.irqShadow) (by decide)⟩

theorem test_witness_FlagsWrittenOnlyByTheListed :
    ∃ t, exec (.sts 0x60#16 0) State.reset = .next t ∧ 0x5F#16 ∉ storeAddrs State.reset (.sts 0x60#16 0) :=
  ⟨_, rfl, by decide⟩

theorem test_witness_RegistersWrittenOnlyByTheListed :
    ∃ t, exec (.sts 0x1F#16 0) State.reset = .next t ∧ (30 : Reg) ∉ destRegs (.sts 0x1F#16 0) ∧
      BitVec.ofNat 16 (30 : Reg).val ∉ storeAddrs State.reset (.sts 0x1F#16 0) :=
  ⟨_, rfl, by decide⟩

theorem test_witness_MemoryWrittenOnlyAtStoreAddresses :
    ∃ t, exec (.sts 0x60#16 0) State.reset = .next t ∧ 0x61#16 ∉ storeAddrs State.reset (.sts 0x60#16 0) ∧
      (Instr.sts 0x60#16 0) ≠ .spm :=
  ⟨_, rfl, by decide⟩

/-- One NOP. -/
def idle : State := start device [] [(0, 0x0000#16)]

theorem test_witness_StepKeepsInvariant : idle.Inv ∧ ∃ t, step idle = .next t := by
  have hp : (idle.prog.all fun c => decide (c.1 < 2 * idle.cfg.flashWords)) = true := by decide
  refine ⟨⟨by decide, by decide, by decide, fun c h => absurd (show c ∈ [] from h) List.not_mem_nil, by decide, fun c h => by simpa using List.all_eq_true.mp hp c h, by decide,
    by decide, fun c h => absurd (show c ∈ [] from h) List.not_mem_nil, by decide, by decide, by decide, by decide⟩, ?_⟩
  obtain ⟨t, h, -⟩ := exists_of_after (o := step idle) (p := fun _ => true) (by decide)
  exact ⟨t, h⟩

end Sys2Proof.Tests
end

section
/-! PROOFS. The program counter (family `10_state`). -/

namespace Sys2Proof.Machine

/-- The relative target is the integer residue of R160: the modulus is positive, so reading it as a natural loses no sign. -/
theorem State.relTarget_toInt (s : State) (k : Int) :
    ((s.relTarget k : Nat) : Int) = ((s.pc.toNat : Int) + 1 + k) % ((2 ^ s.cfg.pcBits : Nat) : Int) :=
  Int.toNat_of_nonneg (Int.emod_nonneg _ (Int.natCast_ne_zero.mpr (Nat.two_pow_pos _).ne'))

/-- A relative target is an address of the program counter's width, for either sign of the offset. -/
theorem State.relTarget_lt (s : State) (k : Int) : s.relTarget k < 2 ^ s.cfg.pcBits := by
  have hlt : ((s.relTarget k : Nat) : Int) < ((2 ^ s.cfg.pcBits : Nat) : Int) := by
    rw [s.relTarget_toInt k]
    exact Int.emod_lt_of_pos _ (Int.natCast_pos.mpr (Nat.two_pow_pos _))
  exact Int.ofNat_lt.mp hlt

/-- What a program counter of at most 22 bits holds after `pc <- n` (R28). -/
theorem State.toNat_setPc_pc (s : State) (n : Nat) (h : s.cfg.pcBits ≤ 22) :
    (s.setPc n).pc.toNat = n % 2 ^ s.cfg.pcBits := by
  rw [State.setPc_pc, Config.toNat_wrapPc s.cfg n h]

/-- Settles O6: `pc <- n` wraps, and a relative target is already reduced, so that storing it wraps nothing. -/
theorem programCounterWraps : Obligations.ProgramCounterWraps := by
  unfold Obligations.ProgramCounterWraps
  intro s n k hbits
  refine ⟨s.toNat_setPc_pc n hbits, s.relTarget_toInt k, ?_⟩
  rw [s.toNat_setPc_pc _ hbits, Nat.mod_eq_of_lt (s.relTarget_lt k)]

end Sys2Proof.Machine
end

section
/-! PROOFS. Writing the data space (family `20_memory`). -/

namespace Sys2Proof.Machine

/-! The address range of each implemented region, in the words of R63 and R64; `dataRegion_unimplemented_iff` has the rest. -/

theorem dataRegion_eq_register {c : Config} {a : Word} (ha : a.toNat ≤ 0x1F) : dataRegion c a = .register :=
  if_pos ha

theorem dataRegion_eq_io {c : Config} {a : Word} (hsp : c.hasSp = true) (hlo : 0x1F < a.toNat) (hhi : a.toNat ≤ 0x5F) :
    dataRegion c a = .io := by
  simp [dataRegion, hsp, Nat.not_le.mpr hlo, hhi]

theorem dataRegion_eq_sram {c : Config} {a : Word} (hsp : c.hasSp = true) (hlo : 0x60 ≤ a.toNat) (hhi : a.toNat ≤ c.sramEnd) :
    dataRegion c a = .sram := by
  have hreg : ¬ a.toNat ≤ 0x1F := by omega
  have hio : ¬ a.toNat ≤ 0x5F := by omega
  simp [dataRegion, hsp, hreg, hio, hhi]

/-! What a data write is in each implemented region; `State.memWrite_of_unimplemented` has the stop. -/

theorem State.memWrite_of_register {s : State} {a : Word} (v : Byte) (h : dataRegion s.cfg a = .register) :
    s.memWrite a v = .next (s.setReg (regOfData a) v) := by
  simp only [State.memWrite, h]

theorem State.memWrite_of_io {s : State} {a : Word} (v : Byte) (h : dataRegion s.cfg a = .io) :
    s.memWrite a v = .next (s.ioWrite (ioOfData a) v) := by
  simp only [State.memWrite, h]

theorem State.memWrite_of_sram {s : State} {a : Word} (v : Byte) (h : dataRegion s.cfg a = .sram) :
    s.memWrite a v = .next { s with sram := s.sram.write sramBlank a.toNat v } := by
  simp only [State.memWrite, h]

/-- The SRAM line of R64 in full: the byte reads back, and with the old SRAM put back the state is the one before. -/
theorem State.memWrite_sram_effect {s : State} {a : Word} (v : Byte) (h : dataRegion s.cfg a = .sram) :
    ∃ t, s.memWrite a v = .next t ∧ t.sramByte? a = some v ∧ (∀ b, b ≠ a → t.sramByte? b = s.sramByte? b) ∧
      { t with sram := s.sram } = s := by
  refine ⟨_, State.memWrite_of_sram v h, ?_, fun b hb => ?_, rfl⟩
  · rw [State.sramByte_write, if_pos rfl]
  · rw [State.sramByte_write, if_neg hb]

/-- Settles O33: one line of R64 per region of the address. -/
theorem memWriteByRegion : Obligations.MemWriteByRegion := by
  unfold Obligations.MemWriteByRegion
  intro s a v
  refine ⟨fun ha => ?register, fun hsp hlo => ?noSram, fun hsp hlo hhi => ?io, fun hsp hlo hhi => ?sram,
    fun _ hlo hhi => ?above⟩
  case register => exact State.memWrite_of_register v (dataRegion_eq_register ha)
  case noSram => exact State.memWrite_of_unimplemented v (dataRegion_unimplemented_iff.mpr (.inr ⟨hlo, hsp⟩))
  case io => exact State.memWrite_of_io v (dataRegion_eq_io hsp hlo hhi)
  case sram => exact State.memWrite_sram_effect v (dataRegion_eq_sram hsp hlo hhi)
  case above => exact State.memWrite_of_unimplemented v (dataRegion_unimplemented_iff.mpr (.inl ⟨hlo, hhi⟩))

end Sys2Proof.Machine
end

section
/-! PROOFS. Flag formulas, logic and 16-bit arithmetic (family `40_arithmetic_logic`). -/

namespace Sys2Proof.Machine

/-! ### The bits and the signed value of a byte and of a word, in the number it holds -/

theorem Byte.getElem_three (a : Byte) : a[3] = decide (8 ≤ a.toNat % 16) := by
  rw [BitVec.getElem_eq_testBit_toNat, Nat.testBit_eq_decide_div_mod_eq]
  exact decide_eq_decide.mpr (by omega)

theorem Byte.msb_eq_getElem (a : Byte) : a.msb = a[7] := BitVec.msb_eq_getLsbD_last a

theorem Byte.getElem_seven (a : Byte) : a[7] = decide (128 ≤ a.toNat) := by
  rw [← Byte.msb_eq_getElem]
  exact BitVec.msb_eq_decide a

theorem Byte.toInt_eq (a : Byte) : a.toInt = if 128 ≤ a.toNat then (a.toNat : Int) - 256 else a.toNat := by
  simpa [BitVec.msb_eq_decide] using BitVec.toInt_eq_msb_cond a

theorem Word.msb_eq_decide (a : Word) : a.msb = decide (32768 ≤ a.toNat) := BitVec.msb_eq_decide a

theorem Word.toInt_eq (a : Word) : a.toInt = if 32768 ≤ a.toNat then (a.toNat : Int) - 65536 else a.toNat := by
  simpa [BitVec.msb_eq_decide] using BitVec.toInt_eq_msb_cond a

/-! ### Carries and overflow of a sum of bytes

R120 and R121 are one table read in two directions: where `r = a - b - c`, the byte `a` is the sum of `r`, `b` and `c`, and a
borrow of the difference is a carry of that sum. -/

/-- The byte `z` is the sum of `x`, `y` and the carry in, with or without a carry out. -/
def Byte.IsSum (x y : Byte) (c : Bool) (z : Byte) : Prop :=
  x.toNat + y.toNat + c.toNat = z.toNat ∨ x.toNat + y.toNat + c.toNat = z.toNat + 256

/-- A sum of two digits below `2 * m` carries out exactly when at least two of three hold: `x` has its top bit, `y` has its top bit,
the result `z` lacks it. -/
theorem carry_eq_majority {m x y z : Nat} {c : Bool} (hx : x < 2 * m) (hy : y < 2 * m) (hz : z < 2 * m)
    (hsum : x + y + c.toNat = z ∨ x + y + c.toNat = z + 2 * m) :
    decide (2 * m ≤ x + y + c.toNat) =
      ((decide (m ≤ x) && decide (m ≤ y)) || (decide (m ≤ y) && !decide (m ≤ z)) || (!decide (m ≤ z) && decide (m ≤ x))) := by
  have hc := c.toNat_le
  rw [Bool.eq_iff_iff]
  simp only [Bool.or_eq_true, Bool.and_eq_true, Bool.not_eq_true', decide_eq_true_iff, decide_eq_false_iff_not]
  omega

section
variable {x y z : Byte} {c : Bool}

/-- The carry out of bit 3, from the three bits 3. -/
theorem Byte.IsSum.halfCarry_eq (h : Byte.IsSum x y c z) :
    decide (16 ≤ x.toNat % 16 + y.toNat % 16 + c.toNat) = ((x[3] && y[3]) || (y[3] && !z[3]) || (!z[3] && x[3])) := by
  have hc := c.toNat_le
  have hlow : x.toNat % 16 + y.toNat % 16 + c.toNat = z.toNat % 16 ∨
      x.toNat % 16 + y.toNat % 16 + c.toNat = z.toNat % 16 + 2 * 8 := by
    unfold Byte.IsSum at h
    omega
  simp only [Byte.getElem_three]
  exact carry_eq_majority (m := 8) (Nat.mod_lt _ (by decide)) (Nat.mod_lt _ (by decide)) (Nat.mod_lt _ (by decide)) hlow

/-- The carry out of bit 7, from the three bits 7. -/
theorem Byte.IsSum.carry_eq (h : Byte.IsSum x y c z) :
    decide (256 ≤ x.toNat + y.toNat + c.toNat) = ((x[7] && y[7]) || (y[7] && !z[7]) || (!z[7] && x[7])) := by
  simp only [Byte.getElem_seven]
  exact carry_eq_majority (m := 128) x.isLt y.isLt z.isLt h

/-- The sum of two bytes of one sign has the other sign exactly when the signed sum leaves the signed range. -/
theorem Byte.IsSum.overflow_iff (h : Byte.IsSum x y c z) :
    (x[7] = y[7] ∧ z[7] ≠ x[7]) ↔ ¬ (-128 ≤ x.toInt + y.toInt + c.toNat ∧ x.toInt + y.toInt + c.toNat ≤ 127) := by
  have hc := c.toNat_le
  simp only [Byte.toInt_eq, Byte.getElem_seven, decide_eq_decide, ne_eq]
  unfold Byte.IsSum at h
  omega

/-- The difference `z = x - y - c` of two bytes of different signs has the sign of `y` exactly when the signed difference leaves the
signed range. -/
theorem Byte.IsSum.difference_overflow_iff (h : Byte.IsSum z y c x) :
    (x[7] ≠ y[7] ∧ z[7] ≠ x[7]) ↔ ¬ (-128 ≤ x.toInt - y.toInt - c.toNat ∧ x.toInt - y.toInt - c.toNat ≤ 127) := by
  have hc := c.toNat_le
  simp only [Byte.toInt_eq, Byte.getElem_seven, decide_eq_decide, ne_eq]
  unfold Byte.IsSum at h
  omega

/-- N xor V of a difference: its own sign where the operands have one sign, the sign of the first operand where they differ. -/
theorem differenceSign_eq :
    ∀ x y z : Bool, (z ^^ (x != y && z != x)) = if x = y then z else x := by decide

/-- N xor V of the difference `z = x - y - c` is the signed order. -/
theorem Byte.IsSum.signedLess_iff (h : Byte.IsSum z y c x) :
    (z[7] ^^ (x[7] != y[7] && z[7] != x[7])) = true ↔ x.toInt < y.toInt + c.toNat := by
  have hc := c.toNat_le
  unfold Byte.IsSum at h
  rw [differenceSign_eq]
  simp only [Byte.toInt_eq, Byte.getElem_seven, decide_eq_decide]
  split
  case isTrue sameSign =>
    rw [decide_eq_true_iff]
    omega
  case isFalse otherSign =>
    rw [decide_eq_true_iff]
    omega

end

/-- The sum of `addFlags` is a sum. -/
theorem addFlags_isSum (a b : Byte) (c : Bool) : Byte.IsSum a b c (addFlags a b c).r := by
  have hc := c.toNat_le
  simp only [Byte.IsSum, addFlags, BitVec.toNat_ofNat]
  omega

theorem toNat_subFlags_r (a b : Byte) (c : Bool) :
    ((subFlags a b c).r.toNat : Int) = ((a.toNat : Int) - b.toNat - c.toNat) % 256 := by
  simp only [subFlags, BitVec.toNat_ofInt]
  omega

/-- The difference of `subFlags` is a sum read backwards. -/
theorem subFlags_isSum (a b : Byte) (c : Bool) : Byte.IsSum (subFlags a b c).r b c a := by
  have hc := c.toNat_le
  have hr := toNat_subFlags_r a b c
  unfold Byte.IsSum
  omega

theorem addFlags_v (a b : Byte) (c : Bool) : (addFlags a b c).v = (a[7] == b[7] && (addFlags a b c).r[7] != a[7]) := by
  simp only [← Byte.msb_eq_getElem, addFlags]

theorem subFlags_v (a b : Byte) (c : Bool) : (subFlags a b c).v = (a[7] != b[7] && (subFlags a b c).r[7] != a[7]) := by
  simp only [← Byte.msb_eq_getElem, subFlags]

theorem addFlags_v_iff (a b : Byte) (c : Bool) :
    (addFlags a b c).v = true ↔ a[7] = b[7] ∧ (addFlags a b c).r[7] ≠ a[7] := by
  rw [addFlags_v, Bool.and_eq_true, beq_iff_eq, bne_iff_ne]

theorem subFlags_v_iff (a b : Byte) (c : Bool) :
    (subFlags a b c).v = true ↔ a[7] ≠ b[7] ∧ (subFlags a b c).r[7] ≠ a[7] := by
  rw [subFlags_v, Bool.and_eq_true, bne_iff_ne, bne_iff_ne]

/-- The half borrow of the difference is the half carry of the sum read backwards. -/
theorem subFlags_h (a b : Byte) (c : Bool) :
    (subFlags a b c).h = decide (16 ≤ (subFlags a b c).r.toNat % 16 + b.toNat % 16 + c.toNat) := by
  have hc := c.toNat_le
  have hsum := subFlags_isSum a b c
  unfold Byte.IsSum at hsum
  exact decide_eq_decide.mpr (by omega)

/-- The borrow of the difference is the carry of the sum read backwards. -/
theorem subFlags_c (a b : Byte) (c : Bool) :
    (subFlags a b c).c = decide (256 ≤ (subFlags a b c).r.toNat + b.toNat + c.toNat) := by
  have hsum := subFlags_isSum a b c
  unfold Byte.IsSum at hsum
  exact decide_eq_decide.mpr (by omega)

/-! R120 and R121 write a carry, a borrow and V as sums of products of bits. -/

/-- The majority of `r`, `b` and not `a`, in the order of R121. -/
theorem borrowBits_eq :
    ∀ a b r : Bool, ((r && b) || (b && !a) || (!a && r)) = ((!a && b) || (b && r) || (r && !a)) := by decide

theorem addOverflowBits_eq :
    ∀ a b r : Bool, (a == b && r != a) = ((a && b && !r) || (!a && !b && r)) := by decide

theorem subOverflowBits_eq :
    ∀ a b r : Bool, (a != b && r != a) = ((a && !b && !r) || (!a && b && r)) := by decide

/-- Settles O7: the sum's own carries, and its overflow by the signs, by the bits and by the signed value. -/
theorem addFlagsFormulas : Obligations.AddFlagsFormulas := by
  unfold Obligations.AddFlagsFormulas
  intro a b c
  have hsum := addFlags_isSum a b c
  refine ⟨BitVec.toNat_ofNat _ _, decide_eq_true_iff, hsum.halfCarry_eq, decide_eq_true_iff, hsum.carry_eq,
    addFlags_v_iff a b c, ?bits, (addFlags_v_iff a b c).trans hsum.overflow_iff, Byte.msb_eq_getElem _, beq_iff_eq, rfl⟩
  case bits => rw [addFlags_v, addOverflowBits_eq]

/-- Settles O8: the same table read backwards, and the orders that C and S decide. -/
theorem subFlagsFormulas : Obligations.SubFlagsFormulas := by
  unfold Obligations.SubFlagsFormulas
  intro a b c
  have hsum := subFlags_isSum a b c
  refine ⟨toNat_subFlags_r a b c, decide_eq_true_iff, ?halfBorrow, decide_eq_true_iff, ?borrow, subFlags_v_iff a b c, ?bits,
    (subFlags_v_iff a b c).trans hsum.difference_overflow_iff, Byte.msb_eq_getElem _, beq_iff_eq, rfl, ?signedLess⟩
  case halfBorrow => rw [subFlags_h, hsum.halfCarry_eq, borrowBits_eq]
  case borrow => rw [subFlags_c, hsum.carry_eq, borrowBits_eq]
  case bits => rw [subFlags_v, subOverflowBits_eq]
  case signedLess =>
    have hs : (subFlags a b c).s = ((subFlags a b c).r[7] ^^ (subFlags a b c).v) :=
      congrArg (· ^^ _) (Byte.msb_eq_getElem _)
    rw [hs, subFlags_v]
    exact hsum.signedLess_iff

/-! ### Logic (R122) -/

/-- What a byte result does with a SREG that has S, V, N, Z anew: the register, the four flags, the next instruction, the frame. -/
theorem State.putResult_sregSVNZ (s : State) (d : Reg) (r sreg : Byte) {v n z : Bool} (h : sreg = sregSVNZ s.sreg v n z) :
    (s.putResult d r sreg).reg d = r ∧ (s.putResult d r sreg).flag flagV = v ∧ (s.putResult d r sreg).flag flagN = n ∧
      (s.putResult d r sreg).flag flagZ = z ∧ (s.putResult d r sreg).flag flagS = (n ^^ v) ∧
      GoesOn 1 s (s.putResult d r sreg) ∧ Frame [d] [flagS, flagV, flagN, flagZ] s (s.putResult d r sreg) := by
  subst h
  have hkept : ∀ b : Flag, b ∉ [flagS, flagV, flagN, flagZ] →
      (sregSVNZ s.sreg v n z).getLsbD b.val = s.flag b := by
    intro b hb
    simp only [List.mem_cons, List.not_mem_nil, or_false, not_or] at hb
    simp only [sregSVNZ_bit, hb, if_false, State.flag]
  obtain ⟨hreg, hsreg, hgo, hframe⟩ := State.putResult_frame s d r _ hkept
  refine ⟨hreg, ?_, ?_, ?_, ?_, hgo, hframe⟩ <;> simp only [State.flag, hsreg, sregSVNZ_bit] <;> rfl

/-- What every logic instruction does with its result. -/
theorem State.putLogic_result (s : State) (d : Reg) (r : Byte) : LogicResult d r s (s.putLogic d r) := by
  obtain ⟨hreg, hv, hn, hz, hs, hgo, hframe⟩ := State.putResult_sregSVNZ s d r (logicFlags s.sreg r) rfl
  have hsign : (r.msb ^^ false) = r[7] := (Bool.xor_false _).trans (Byte.msb_eq_getElem r)
  exact ⟨hreg, hv, hn.trans (Byte.msb_eq_getElem r), (Bool.eq_iff_iff.mp hz).trans beq_iff_eq, hs.trans hsign, hgo, hframe⟩

/-- Settles O14: each instruction is `putLogic` of its bitwise result; CBR, TST and CLR by the identities behind their
expansions. -/
theorem logicResults : Obligations.LogicResults := by
  unfold Obligations.LogicResults
  intro d r k s
  refine ⟨⟨_, rfl, s.putLogic_result d _⟩, ⟨_, rfl, s.putLogic_result d _⟩, ⟨_, rfl, s.putLogic_result d _⟩,
    ⟨_, rfl, s.putLogic_result d _⟩, ⟨_, rfl, s.putLogic_result d _⟩, ⟨_, rfl, s.putLogic_result d _⟩,
    ⟨_, rfl, ?cbr⟩, ⟨_, rfl, ?tst⟩, ⟨_, rfl, ?clr⟩⟩
  case cbr =>
    rw [← BitVec.allOnes_sub_eq_not]
    exact s.putLogic_result d _
  case tst => simpa only [BitVec.and_self] using s.putLogic_result d (s.reg d &&& s.reg d)
  case clr => simpa only [BitVec.xor_self] using s.putLogic_result d (s.reg d ^^^ s.reg d)

/-! ### 16-bit arithmetic (R124) -/

/-- What ADIW and SBIW share: N, Z and S of the 16-bit result `r`, and its frame; C and V are their own. -/
theorem State.putPair_wordFlags (s : State) (d : Reg) (r : Word) (sreg : Byte) {v c : Bool}
    (h : sreg = sregSVNZC s.sreg v r.msb (r == 0#16) c) :
    (s.putPair d r sreg).pair d = r ∧ (s.putPair d r sreg).flag flagC = c ∧ (s.putPair d r sreg).flag flagV = v ∧
      ((s.putPair d r sreg).flag flagN = true ↔ 32768 ≤ ((s.putPair d r sreg).pair d).toNat) ∧
      ((s.putPair d r sreg).flag flagZ = true ↔ (s.putPair d r sreg).pair d = 0#16) ∧
      (s.putPair d r sreg).flag flagS = ((s.putPair d r sreg).flag flagN ^^ (s.putPair d r sreg).flag flagV) ∧
      GoesOn 1 s (s.putPair d r sreg) ∧ Frame [d, d + 1] [flagS, flagV, flagN, flagZ, flagC] s (s.putPair d r sreg) := by
  subst h
  have hkept : ∀ b : Flag, b ∉ [flagS, flagV, flagN, flagZ, flagC] →
      (sregSVNZC s.sreg v r.msb (r == 0#16) c).getLsbD b.val = s.flag b := by
    intro b hb
    simp only [List.mem_cons, List.not_mem_nil, or_false, not_or] at hb
    simp only [sregSVNZC_bit, hb, if_false, State.flag]
  obtain ⟨hpair, hsreg, hgo, hframe⟩ := State.putPair_frame s d r _ hkept
  refine ⟨hpair, ?c, ?v, ?n, ?z, ?s, hgo, hframe⟩ <;> simp only [hpair, State.flag, hsreg, sregSVNZC_bit]
  case c | v | s => rfl
  case n => exact (Bool.eq_iff_iff.mp (Word.msb_eq_decide r)).trans decide_eq_true_iff
  case z => exact beq_iff_eq

theorem toNat_adiwResult (a : Word) (k : BitVec 6) : (adiwResult a k).toNat = (a.toNat + k.toNat) % 65536 :=
  BitVec.toNat_ofNat _ _

theorem toNat_sbiwResult (a : Word) (k : BitVec 6) :
    ((sbiwResult a k).toNat : Int) = ((a.toNat : Int) - k.toNat) % 65536 := by
  simp only [sbiwResult, BitVec.toNat_ofInt]
  omega

/-- V of ADIW: the constant is not negative, so only a sum above the signed range overflows. -/
theorem adiwOverflow_iff (a : Word) (k : BitVec 6) :
    (!a.msb && (adiwResult a k).msb) = true ↔ a.toInt + k.toNat > 32767 := by
  have hr := toNat_adiwResult a k
  simp only [Bool.and_eq_true, Bool.not_eq_true', Word.msb_eq_decide, Word.toInt_eq, decide_eq_true_iff,
    decide_eq_false_iff_not]
  omega

/-- V of SBIW: only a difference below the signed range overflows. -/
theorem sbiwOverflow_iff (a : Word) (k : BitVec 6) :
    (a.msb && !(sbiwResult a k).msb) = true ↔ a.toInt - k.toNat < -32768 := by
  have hr := toNat_sbiwResult a k
  simp only [Bool.and_eq_true, Bool.not_eq_true', Word.msb_eq_decide, Word.toInt_eq, decide_eq_true_iff,
    decide_eq_false_iff_not]
  omega

/-- Settles O16: the flags that the two share, and each one's own result, carry and overflow. -/
theorem wordAddAndSubtractResults : Obligations.WordAddAndSubtractResults := by
  unfold Obligations.WordAddAndSubtractResults
  intro d k s
  refine ⟨⟨_, rfl, ?adiw⟩, ⟨_, rfl, ?sbiw⟩⟩
  case adiw =>
    obtain ⟨hpair, hc, hv, hrest⟩ := State.putPair_wordFlags s d (adiwResult (s.pair d) k) (adiwFlags s.sreg (s.pair d) k) rfl
    refine ⟨?_, ?_, ?_, hrest⟩
    · rw [hpair, toNat_adiwResult]
    · rw [hc, decide_eq_true_iff]
    · rw [hv, adiwOverflow_iff]
  case sbiw =>
    obtain ⟨hpair, hc, hv, hrest⟩ := State.putPair_wordFlags s d (sbiwResult (s.pair d) k) (sbiwFlags s.sreg (s.pair d) k) rfl
    refine ⟨?_, ?_, ?_, hrest⟩
    · rw [hpair, toNat_sbiwResult]
    · rw [hc, decide_eq_true_iff]
    · rw [hv, sbiwOverflow_iff]

end Sys2Proof.Machine
end

section
/-! PROOFS. Encoding and decoding (family `30_encoding`). -/

namespace Sys2Proof

/-! ### A word under a mask, as the sum of the bit fields that the mask keeps (R94) -/

/-- A masked number falls apart at any bit position. -/
theorem land_split (k n m : Nat) :
    n &&& m = (n / 2 ^ k &&& m / 2 ^ k) * 2 ^ k + (n % 2 ^ k &&& m % 2 ^ k) := by
  rw [← Nat.and_div_two_pow, ← Nat.and_mod_two_pow, Nat.div_add_mod']

/-- A run of `len` ones from bit `lo` keeps that field. -/
theorem land_field (n len lo : Nat) : n &&& (2 ^ len - 1) * 2 ^ lo = n / 2 ^ lo % 2 ^ len * 2 ^ lo := by
  rw [land_split lo, Nat.mul_div_cancel _ (Nat.two_pow_pos lo), Nat.mul_mod_left, Nat.and_zero, Nat.and_two_pow_sub_one_eq_mod,
    Nat.add_zero]

/-- A mask whose low part fits below bit `k` keeps what its two parts keep. -/
theorem land_add (n m₁ : Nat) {k m₂ : Nat} (h : m₂ < 2 ^ k) :
    n &&& (m₁ * 2 ^ k + m₂) = (n &&& m₁ * 2 ^ k) + (n &&& m₂) := by
  have hdiv : (m₁ * 2 ^ k + m₂) / 2 ^ k = m₁ := by
    rw [Nat.mul_comm, Nat.mul_add_div (Nat.two_pow_pos k), Nat.div_eq_of_lt h, Nat.add_zero]
  rw [land_split k n (m₁ * 2 ^ k + m₂), land_split k n (m₁ * 2 ^ k), land_split k n m₂, hdiv, Nat.mul_comm m₁, Nat.mul_add_mod,
    Nat.mul_div_cancel_left _ (Nat.two_pow_pos k), Nat.mul_mod_right, Nat.div_eq_of_lt h]
  simp

theorem land_0xF000 (n : Nat) : n &&& 0xF000 = n / 4096 % 16 * 4096 := land_field n 4 12
theorem land_0xF800 (n : Nat) : n &&& 0xF800 = n / 2048 % 32 * 2048 := land_field n 5 11
theorem land_0xFC00 (n : Nat) : n &&& 0xFC00 = n / 1024 % 64 * 1024 := land_field n 6 10
theorem land_0xFF00 (n : Nat) : n &&& 0xFF00 = n / 256 % 256 * 256 := land_field n 8 8
theorem land_0xFE00 (n : Nat) : n &&& 0xFE00 = n / 512 % 128 * 512 := land_field n 7 9
theorem land_0xFF80 (n : Nat) : n &&& 0xFF80 = n / 128 % 512 * 128 := land_field n 9 7
theorem land_0xFFFF (n : Nat) : n &&& 0xFFFF = n % 65536 := Nat.and_two_pow_sub_one_eq_mod n 16
theorem land_0x000F (n : Nat) : n &&& 0x000F = n % 16 := Nat.and_two_pow_sub_one_eq_mod n 4
theorem land_0x000E (n : Nat) : n &&& 0x000E = n / 2 % 8 * 2 := land_field n 3 1
theorem land_0x0008 (n : Nat) : n &&& 0x0008 = n / 8 % 2 * 8 := land_field n 1 3

theorem land_0xFE0F (n : Nat) : n &&& 0xFE0F = n / 512 % 128 * 512 + n % 16 :=
  (land_add n 127 (k := 9) (m₂ := 0x0F) (by decide)).trans (congrArg₂ (· + ·) (land_0xFE00 n) (land_0x000F n))

theorem land_0xFE0E (n : Nat) : n &&& 0xFE0E = n / 512 % 128 * 512 + n / 2 % 8 * 2 :=
  (land_add n 127 (k := 9) (m₂ := 0x0E) (by decide)).trans (congrArg₂ (· + ·) (land_0xFE00 n) (land_0x000E n))

theorem land_0xFE08 (n : Nat) : n &&& 0xFE08 = n / 512 % 128 * 512 + n / 8 % 2 * 8 :=
  (land_add n 127 (k := 9) (m₂ := 0x08) (by decide)).trans (congrArg₂ (· + ·) (land_0xFE00 n) (land_0x0008 n))

theorem land_0xFF8F (n : Nat) : n &&& 0xFF8F = n / 128 % 512 * 128 + n % 16 :=
  (land_add n 511 (k := 7) (m₂ := 0x0F) (by decide)).trans (congrArg₂ (· + ·) (land_0xFF80 n) (land_0x000F n))

theorem land_0xFF88 (n : Nat) : n &&& 0xFF88 = n / 128 % 512 * 128 + n / 8 % 2 * 8 :=
  (land_add n 511 (k := 7) (m₂ := 0x08) (by decide)).trans (congrArg₂ (· + ·) (land_0xFF80 n) (land_0x0008 n))

theorem land_0xD208 (n : Nat) : n &&& 0xD208 =
    n / 16384 % 4 * 16384 + (n / 4096 % 2 * 4096 + (n / 512 % 2 * 512 + n / 8 % 2 * 8)) := by
  have low : n &&& 0x0208 = n / 512 % 2 * 512 + n / 8 % 2 * 8 :=
    (land_add n 1 (k := 9) (m₂ := 0x08) (by decide)).trans (congrArg₂ (· + ·) (land_field n 1 9) (land_0x0008 n))
  have mid : n &&& 0x1208 = n / 4096 % 2 * 4096 + (n / 512 % 2 * 512 + n / 8 % 2 * 8) :=
    (land_add n 1 (k := 12) (m₂ := 0x0208) (by decide)).trans (congrArg₂ (· + ·) (land_field n 1 12) low)
  exact (land_add n 3 (k := 14) (m₂ := 0x1208) (by decide)).trans (congrArg₂ (· + ·) (land_field n 2 14) mid)

theorem add_eq_lor {a b : Nat} (h : a &&& b = 0) : a + b = a ||| b := by
  have hlt : ∀ n, n ≤ a + b → n % 2 ^ (a + b) = n := fun n hn => Nat.mod_eq_of_lt (hn.trans_lt Nat.lt_two_pow_self)
  have hsum := BitVec.add_eq_or_of_and_eq_zero (BitVec.ofNat (a + b) a) (BitVec.ofNat (a + b) b) (by
    rw [← BitVec.toNat_inj, BitVec.toNat_and, BitVec.toNat_ofNat, BitVec.toNat_ofNat, hlt a (by omega), hlt b (by omega), h,
      BitVec.toNat_ofNat, Nat.zero_mod])
  rw [← BitVec.toNat_inj, BitVec.toNat_add, BitVec.toNat_or] at hsum
  simpa only [BitVec.toNat_ofNat, hlt a (by omega), hlt b (by omega), hlt (a + b) le_rfl] using hsum

/-- What the mask drops does not carry into what it keeps. -/
theorem add_land_of_disjoint {a b m : Nat} (ha : a &&& m = a) (hb : b &&& m = 0) : (a + b) &&& m = a := by
  have hab : a &&& b = 0 := by rw [← ha, Nat.land_assoc, Nat.land_comm m b, hb, Nat.and_zero]
  rw [add_eq_lor hab, Nat.and_or_distrib_right, ha, hb, Nat.or_zero]

/-- Operands below bit `k` lie outside a mask of higher bits. -/
theorem land_high_eq_zero {x k : Nat} (m : Nat) (h : x < 2 ^ k) : x &&& m * 2 ^ k = 0 := by
  rw [land_split k, Nat.div_eq_of_lt h, Nat.mul_mod_left, Nat.zero_and, Nat.and_zero, Nat.zero_mul]

/-- A word that is a row's pattern and operands beside the mask has that pattern under the mask. -/
theorem encoded_land {w : Word} {base operands mask : Nat} (hw : w.toNat = base + operands) (hbase : base &&& mask = base)
    (hoperands : operands &&& mask = 0) : w.toNat &&& mask = base := by
  rw [hw, add_land_of_disjoint hbase hoperands]

/-! ### The values of the operand fields of a first word (R95 to R104) -/

theorem regD_val (w : Word) : (regD w).val = w.toNat / 16 % 32 := by
  simp only [regD, bits, Fin.val_ofNat]
  norm_num

theorem regR_val (w : Word) : (regR w).val = w.toNat / 512 % 2 * 16 + w.toNat % 16 := by
  simp only [regR, bits, Fin.val_ofNat]
  omega

theorem regDUpper_val (w : Word) : (regDUpper w).val = 16 + w.toNat / 16 % 16 := by
  simp only [regDUpper, bits, Fin.val_ofNat]
  omega

theorem regRUpper_val (w : Word) : (regRUpper w).val = 16 + w.toNat % 16 := by
  simp only [regRUpper, bits, Fin.val_ofNat]
  omega

theorem regDMul3_val (w : Word) : (regDMul3 w).val = 16 + w.toNat / 16 % 8 := by
  simp only [regDMul3, bits, Fin.val_ofNat]
  omega

theorem regRMul3_val (w : Word) : (regRMul3 w).val = 16 + w.toNat % 8 := by
  simp only [regRMul3, bits, Fin.val_ofNat]
  omega

theorem regDEven_val (w : Word) : (regDEven w).val = 2 * (w.toNat / 16 % 16) := by
  simp only [regDEven, bits, Fin.val_ofNat]
  omega

theorem regREven_val (w : Word) : (regREven w).val = 2 * (w.toNat % 16) := by
  simp only [regREven, bits, Fin.val_ofNat]
  omega

theorem regDPair_val (w : Word) : (regDPair w).val = 24 + 2 * (w.toNat / 16 % 4) := by
  simp only [regDPair, bits, Fin.val_ofNat]
  omega

theorem toNat_immK (w : Word) : (immK w).toNat = w.toNat / 256 % 16 * 16 + w.toNat % 16 := by
  simp only [immK, bits, BitVec.toNat_ofNat]
  omega

theorem toNat_wordK (w : Word) : (wordK w).toNat = w.toNat / 64 % 4 * 16 + w.toNat % 16 := by
  simp only [wordK, bits, BitVec.toNat_ofNat]
  omega

theorem toNat_dispQ (w : Word) : (dispQ w).toNat = w.toNat / 8192 % 2 * 32 + w.toNat / 1024 % 4 * 8 + w.toNat % 8 := by
  have h5 : w.toNat / 8192 % 2 < 2 := Nat.mod_lt _ (by decide)
  have h43 : w.toNat / 1024 % 4 < 4 := Nat.mod_lt _ (by decide)
  simp only [dispQ, bits, BitVec.toNat_ofNat, Nat.pow_zero, Nat.div_one]
  exact Nat.mod_eq_of_lt (by omega)

theorem toNat_ioA6 (w : Word) : (ioA6 w).toNat = w.toNat / 512 % 4 * 16 + w.toNat % 16 := by
  simp only [ioA6, bits, BitVec.toNat_ofNat]
  omega

theorem toNat_ioA5 (w : Word) : (ioA5 w).toNat = w.toNat / 8 % 32 := by
  simp only [ioA5, bits, BitVec.toNat_ofNat]
  omega

theorem bitB_val (w : Word) : (bitB w).val = w.toNat % 8 := by
  simp only [bitB, bits, Fin.val_ofNat]
  omega

theorem sregBit_val (w : Word) : (sregBit w).val = w.toNat / 16 % 8 := by
  simp only [sregBit, bits, Fin.val_ofNat]
  omega

theorem toNat_relK7 (w : Word) : (relK7 w).toNat = w.toNat / 8 % 128 := by
  simp only [relK7, bits, BitVec.toNat_ofNat]
  omega

theorem toNat_relK12 (w : Word) : (relK12 w).toNat = w.toNat % 4096 := by
  simp only [relK12, bits, BitVec.toNat_ofNat]
  omega

theorem toNat_farK (w w1 : Word) : (farK w w1).toNat = (w.toNat / 16 % 32 * 2 + w.toNat % 2) * 65536 + w1.toNat := by
  simp only [farK, bits, BitVec.toNat_ofNat]
  omega

/-! ### The instruction formats of R95 to R104 -/

/-- An instruction format: which bits of a first word its rows fix, how it spreads operands `α` over the others and reads them
back, and which operands fit. `base` is the row's own pattern under the mask. -/
structure Format (α : Type) where
  mask : Nat
  enc : Nat → α → Word
  fields : Word → α
  fits : α → Bool
  enc_fields : ∀ w : Word, enc (w.toNat &&& mask) (fields w) = w
  fits_fields : ∀ w : Word, fits (fields w) = true
  land_enc : ∀ base a, base &&& mask = base → fits a = true → (enc base a).toNat &&& mask = base
  fields_enc : ∀ base a, base &&& mask = base → fits a = true → fields (enc base a) = a

theorem land_mask_idem (n m : Nat) : (n &&& m) &&& m = n &&& m := by rw [Nat.land_assoc, Nat.and_self]

/-! A row's own pattern leaves the operand bits 0. -/

theorem base_0xF000 {n : Nat} (h : n &&& 0xF000 = n) : n % 4096 = 0 ∧ n < 65536 := by
  rw [land_0xF000] at h
  omega

theorem base_0xF800 {n : Nat} (h : n &&& 0xF800 = n) : n % 2048 = 0 ∧ n < 65536 := by
  rw [land_0xF800] at h
  omega

theorem base_0xFC00 {n : Nat} (h : n &&& 0xFC00 = n) : n % 1024 = 0 ∧ n < 65536 := by
  rw [land_0xFC00] at h
  omega

theorem base_0xFF00 {n : Nat} (h : n &&& 0xFF00 = n) : n % 256 = 0 ∧ n < 65536 := by
  rw [land_0xFF00] at h
  omega

theorem base_0xFE0F {n : Nat} (h : n &&& 0xFE0F = n) : n % 512 < 16 ∧ n < 65536 := by
  rw [land_0xFE0F] at h
  omega

theorem base_0xFE08 {n : Nat} (h : n &&& 0xFE08 = n) : (n % 512 = 0 ∨ n % 512 = 8) ∧ n < 65536 := by
  rw [land_0xFE08] at h
  omega

theorem base_0xFF8F {n : Nat} (h : n &&& 0xFF8F = n) : n % 128 < 16 ∧ n < 65536 := by
  rw [land_0xFF8F] at h
  omega

theorem base_0xFF88 {n : Nat} (h : n &&& 0xFF88 = n) : (n % 128 = 0 ∨ n % 128 = 8) ∧ n < 65536 := by
  rw [land_0xFF88] at h
  omega

theorem base_0xFE0E {n : Nat} (h : n &&& 0xFE0E = n) : n % 512 < 16 ∧ n % 2 = 0 ∧ n < 65536 := by
  rw [land_0xFE0E] at h
  omega

theorem base_0xD208 {n : Nat} (h : n &&& 0xD208 = n) : ∃ a b c d, a < 4 ∧ b < 2 ∧ c < 2 ∧ d < 2 ∧
    n = a * 16384 + b * 4096 + c * 512 + d * 8 := by
  rw [land_0xD208] at h
  exact ⟨n / 16384 % 4, n / 4096 % 2, n / 512 % 2, n / 8 % 2, Nat.mod_lt _ (by decide), Nat.mod_lt _ (by decide),
    Nat.mod_lt _ (by decide), Nat.mod_lt _ (by decide), by omega⟩

/-! What each encoder gives: the row's own pattern and the operand bits beside it. -/

theorem toNat_encRR {base : Nat} (h : base &&& 0xFC00 = base) (d r : Reg) :
    (encRR base d r).toNat = base + (r.val / 16 * 512 + d.val * 16 + r.val % 16) ∧
      r.val / 16 * 512 + d.val * 16 + r.val % 16 < 2 ^ 10 := by
  have hbase := base_0xFC00 h
  have hr : r.val / 16 < 2 := by omega
  have hlt : r.val / 16 * 512 + d.val * 16 + r.val % 16 < 2 ^ 10 := by omega
  rw [encRR, BitVec.toNat_ofNat]
  omega

theorem toNat_encRI {base : Nat} (h : base &&& 0xF000 = base) (d : Reg) (k : Byte) (hd : 16 ≤ d.val) :
    (encRI base d k).toNat = base + (k.toNat / 16 * 256 + (d.val - 16) * 16 + k.toNat % 16) ∧
      k.toNat / 16 * 256 + (d.val - 16) * 16 + k.toNat % 16 < 2 ^ 12 := by
  have hbase := base_0xF000 h
  have hk : k.toNat / 16 < 16 := by omega
  have hlt : k.toNat / 16 * 256 + (d.val - 16) * 16 + k.toNat % 16 < 2 ^ 12 := by omega
  rw [encRI, BitVec.toNat_ofNat]
  omega

theorem toNat_encD {base : Nat} (h : base &&& 0xFE0F = base) (d : Reg) : (encD base d).toNat = base + d.val * 16 := by
  have hbase := base_0xFE0F h
  rw [encD, BitVec.toNat_ofNat]
  omega

theorem toNat_encLDD {base : Nat} (h : base &&& 0xD208 = base) (d : Reg) (q : BitVec 6) :
    (encLDD base d q).toNat = base + (q.toNat / 32 * 8192 + q.toNat / 8 % 4 * 1024 + d.val * 16 + q.toNat % 8) := by
  obtain ⟨a, b, c, e, ha, hb, hc, he, rfl⟩ := base_0xD208 h
  have hq : q.toNat / 32 < 2 := by omega
  have hlt : q.toNat / 32 * 8192 + q.toNat / 8 % 4 * 1024 + d.val * 16 + q.toNat % 8 < 12288 := by omega
  rw [encLDD, BitVec.toNat_ofNat]
  omega

theorem toNat_encIO {base : Nat} (h : base &&& 0xF800 = base) (d : Reg) (p : BitVec 6) :
    (encIO base d p).toNat = base + (p.toNat / 16 * 512 + d.val * 16 + p.toNat % 16) ∧
      p.toNat / 16 * 512 + d.val * 16 + p.toNat % 16 < 2 ^ 11 := by
  have hbase := base_0xF800 h
  have hp : p.toNat / 16 < 4 := by omega
  have hlt : p.toNat / 16 * 512 + d.val * 16 + p.toNat % 16 < 2 ^ 11 := by omega
  rw [encIO, BitVec.toNat_ofNat]
  omega

theorem toNat_encIOB {base : Nat} (h : base &&& 0xFF00 = base) (p : BitVec 5) (b : Fin 8) :
    (encIOB base p b).toNat = base + (p.toNat * 8 + b.val) ∧ p.toNat * 8 + b.val < 2 ^ 8 := by
  have hbase := base_0xFF00 h
  rw [encIOB, BitVec.toNat_ofNat]
  omega

theorem toNat_encRB {base : Nat} (h : base &&& 0xFE08 = base) (d : Reg) (b : Fin 8) :
    (encRB base d b).toNat = base + (d.val * 16 + b.val) := by
  have hbase := base_0xFE08 h
  rw [encRB, BitVec.toNat_ofNat]
  omega

theorem toNat_encBR {base : Nat} (h : base &&& 0xFC00 = base) (b : Fin 8) (k : BitVec 7) :
    (encBR base b k).toNat = base + (k.toNat * 8 + b.val) ∧ k.toNat * 8 + b.val < 2 ^ 10 := by
  have hbase := base_0xFC00 h
  rw [encBR, BitVec.toNat_ofNat]
  omega

theorem toNat_encRel12 {base : Nat} (h : base &&& 0xF000 = base) (k : BitVec 12) :
    (encRel12 base k).toNat = base + k.toNat := by
  have hbase := base_0xF000 h
  rw [encRel12, BitVec.toNat_ofNat]
  omega

theorem toNat_encSreg {base : Nat} (h : base &&& 0xFF8F = base) (b : Fin 8) : (encSreg base b).toNat = base + b.val * 16 := by
  have hbase := base_0xFF8F h
  rw [encSreg, BitVec.toNat_ofNat]
  omega

theorem toNat_encIW {base : Nat} (h : base &&& 0xFF00 = base) (d : Reg) (k : BitVec 6) (hd : 24 ≤ d.val) :
    (encIW base d k).toNat = base + (k.toNat / 16 * 64 + (d.val - 24) / 2 * 16 + k.toNat % 16) ∧
      k.toNat / 16 * 64 + (d.val - 24) / 2 * 16 + k.toNat % 16 < 2 ^ 8 := by
  have hbase := base_0xFF00 h
  have hk : k.toNat / 16 < 4 := by omega
  have hd' : (d.val - 24) / 2 < 4 := by omega
  have hlt : k.toNat / 16 * 64 + (d.val - 24) / 2 * 16 + k.toNat % 16 < 2 ^ 8 := by omega
  rw [encIW, BitVec.toNat_ofNat]
  omega

theorem toNat_encMovw {base : Nat} (h : base &&& 0xFF00 = base) (d r : Reg) :
    (encMovw base d r).toNat = base + (d.val / 2 * 16 + r.val / 2) ∧ d.val / 2 * 16 + r.val / 2 < 2 ^ 8 := by
  have hbase := base_0xFF00 h
  rw [encMovw, BitVec.toNat_ofNat]
  omega

theorem toNat_encMuls {base : Nat} (h : base &&& 0xFF00 = base) (d r : Reg) (hd : 16 ≤ d.val) (hr : 16 ≤ r.val) :
    (encMuls base d r).toNat = base + ((d.val - 16) * 16 + (r.val - 16)) ∧ (d.val - 16) * 16 + (r.val - 16) < 2 ^ 8 := by
  have hbase := base_0xFF00 h
  rw [encMuls, BitVec.toNat_ofNat]
  omega

theorem toNat_encMul3 {base : Nat} (h : base &&& 0xFF88 = base) (d r : Reg) (hd : 16 ≤ d.val ∧ d.val ≤ 23)
    (hr : 16 ≤ r.val ∧ r.val ≤ 23) : (encMul3 base d r).toNat = base + ((d.val - 16) * 16 + (r.val - 16)) := by
  have hbase := base_0xFF88 h
  rw [encMul3, BitVec.toNat_ofNat]
  omega

theorem toNat_encJmp {base : Nat} (h : base &&& 0xFE0E = base) (k : BitVec 22) :
    (encJmp base k).toNat = base + (k.toNat / 131072 * 16 + k.toNat / 65536 % 2) := by
  have hbase := base_0xFE0E h
  have hk : k.toNat / 131072 < 32 := by omega
  have hlt : k.toNat / 131072 * 16 + k.toNat / 65536 % 2 < 512 := by omega
  rw [encJmp, BitVec.toNat_ofNat]
  omega

/-! The formats, each with its two laws: decoding undoes encoding, and encoding undoes decoding. -/

/-- Format RR (R95). -/
def Format.rr : Format (Reg × Reg) where
  mask := 0xFC00
  enc base x := encRR base x.1 x.2
  fields w := (regD w, regR w)
  fits _ := true
  enc_fields w := by
    rw [← BitVec.toNat_inj, (toNat_encRR (land_mask_idem _ _) _ _).1, land_0xFC00, regD_val, regR_val]
    omega
  fits_fields _ := rfl
  land_enc base x hbase _ := by
    obtain ⟨hw, hlt⟩ := toNat_encRR hbase x.1 x.2
    exact encoded_land hw hbase (land_high_eq_zero 63 hlt)
  fields_enc base x hbase _ := by
    have := base_0xFC00 hbase
    simp only [Prod.ext_iff, Fin.ext_iff, regD_val, regR_val, (toNat_encRR hbase x.1 x.2).1]
    omega

/-- Format RI (R96). -/
def Format.ri : Format (Reg × Byte) where
  mask := 0xF000
  enc base x := encRI base x.1 x.2
  fields w := (regDUpper w, immK w)
  fits x := x.1.isUpper
  enc_fields w := by
    rw [← BitVec.toNat_inj, (toNat_encRI (land_mask_idem _ _) _ _ (by rw [regDUpper_val]; omega)).1, land_0xF000, regDUpper_val,
      toNat_immK]
    omega
  fits_fields w := by simp [Reg.isUpper, regDUpper_val]
  land_enc base x hbase hfits := by
    obtain ⟨hw, hlt⟩ := toNat_encRI hbase x.1 x.2 (of_decide_eq_true hfits)
    exact encoded_land hw hbase (land_high_eq_zero 15 hlt)
  fields_enc base x hbase hfits := by
    have hd : 16 ≤ x.1.val := of_decide_eq_true hfits
    have := base_0xF000 hbase
    simp only [Prod.ext_iff, Fin.ext_iff, ← BitVec.toNat_inj, regDUpper_val, toNat_immK, (toNat_encRI hbase x.1 x.2 hd).1]
    omega

/-- Formats R1 and LS: a register in bits 8..4 (R97). -/
def Format.d : Format Reg where
  mask := 0xFE0F
  enc := encD
  fields := regD
  fits _ := true
  enc_fields w := by
    rw [← BitVec.toNat_inj, toNat_encD (land_mask_idem _ _), land_0xFE0F, regD_val]
    omega
  fits_fields _ := rfl
  land_enc base d hbase _ := encoded_land (toNat_encD hbase d) hbase (by rw [land_0xFE0F]; omega)
  fields_enc base d hbase _ := by
    have := base_0xFE0F hbase
    rw [Fin.ext_iff, regD_val, toNat_encD hbase]
    omega

/-- The digits of a word of format LDD: the row's fields `a`, `b`, `c`, `e`, the displacement's `q₅`, `q₄`, `q₀`, the register `d`. -/
theorem lddDigits {n a q₅ b q₄ c d e q₀ : Nat} (h5 : q₅ < 2) (hb : b < 2) (h4 : q₄ < 4) (hc : c < 2) (hd : d < 32) (he : e < 2)
    (h0 : q₀ < 8) (hn : n = a * 16384 + b * 4096 + c * 512 + e * 8 + (q₅ * 8192 + q₄ * 1024 + d * 16 + q₀)) :
    n / 16384 = a ∧ n / 8192 % 2 = q₅ ∧ n / 4096 % 2 = b ∧ n / 1024 % 4 = q₄ ∧ n / 512 % 2 = c ∧ n / 16 % 32 = d ∧
      n / 8 % 2 = e ∧ n % 8 = q₀ := by
  refine ⟨?_, ?_, ?_, ?_, ?_, ?_, ?_, ?_⟩ <;> omega

/-- A number is made of its digits of format LDD. -/
theorem lddDigits_sum (n : Nat) :
    n / 16384 * 16384 + (n / 4096 % 2 * 4096 + (n / 512 % 2 * 512 + n / 8 % 2 * 8)) +
      (n / 8192 % 2 * 8192 + n / 1024 % 4 * 1024 + n / 16 % 32 * 16 + n % 8) = n := by
  have h8 : n / 8192 = n / 16384 * 2 + n / 8192 % 2 := by omega
  have h4 : n / 4096 = n / 8192 * 2 + n / 4096 % 2 := by omega
  have h1 : n / 1024 = n / 4096 * 4 + n / 1024 % 4 := by omega
  have h5 : n / 512 = n / 1024 * 2 + n / 512 % 2 := by omega
  have hd : n / 16 = n / 512 * 32 + n / 16 % 32 := by omega
  have h3 : n / 8 = n / 16 * 2 + n / 8 % 2 := by omega
  have h0 : n = n / 8 * 8 + n % 8 := by omega
  linarith

/-- The digits of a displacement. -/
theorem dispDigits {q q₅ q₄ q₀ : Nat} (h4 : q₄ < 4) (h0 : q₀ < 8) (hq : q = q₅ * 32 + q₄ * 8 + q₀) :
    q / 32 = q₅ ∧ q / 8 % 4 = q₄ ∧ q % 8 = q₀ := by
  omega

theorem dispDigits_sum (q : Nat) : q / 32 * 32 + q / 8 % 4 * 8 + q % 8 = q := by
  omega

/-- Format LDD (R98). -/
def Format.ldd : Format (Reg × BitVec 6) where
  mask := 0xD208
  enc base x := encLDD base x.1 x.2
  fields w := (regD w, dispQ w)
  fits _ := true
  enc_fields w := by
    obtain ⟨h5, h4, h0⟩ := dispDigits (Nat.mod_lt _ (by decide)) (Nat.mod_lt _ (by decide)) (toNat_dispQ w)
    have ha : w.toNat / 16384 % 4 = w.toNat / 16384 := by
      have := w.isLt
      clear h5 h4 h0
      omega
    rw [← BitVec.toNat_inj, toNat_encLDD (land_mask_idem _ _), land_0xD208, regD_val, h5, h4, h0, ha]
    exact lddDigits_sum w.toNat
  fits_fields _ := rfl
  land_enc base x hbase _ := by
    have hq : x.2.toNat / 32 < 2 := Nat.div_lt_of_lt_mul x.2.isLt
    have hw := toNat_encLDD hbase x.1 x.2
    obtain ⟨a, b, c, e, ha, hb, hc, he, rfl⟩ := base_0xD208 hbase
    obtain ⟨ha', -, hb', -, hc', -, he', -⟩ := lddDigits hq hb (Nat.mod_lt _ (by decide)) hc x.1.isLt he
      (Nat.mod_lt _ (by decide)) hw
    rw [land_0xD208, ha', hb', hc', he', Nat.mod_eq_of_lt ha, Nat.add_assoc, Nat.add_assoc]
  fields_enc base x hbase _ := by
    have hq : x.2.toNat / 32 < 2 := Nat.div_lt_of_lt_mul x.2.isLt
    have hw := toNat_encLDD hbase x.1 x.2
    obtain ⟨a, b, c, e, ha, hb, hc, he, rfl⟩ := base_0xD208 hbase
    obtain ⟨-, h5, -, h4, -, hd, -, h0⟩ := lddDigits hq hb (Nat.mod_lt _ (by decide)) hc x.1.isLt he
      (Nat.mod_lt _ (by decide)) hw
    simp only [Prod.ext_iff, Fin.ext_iff, ← BitVec.toNat_inj, regD_val, toNat_dispQ, hd, h5, h4, h0, dispDigits_sum, and_self]

/-- Format IO (R99). -/
def Format.io : Format (Reg × BitVec 6) where
  mask := 0xF800
  enc base x := encIO base x.1 x.2
  fields w := (regD w, ioA6 w)
  fits _ := true
  enc_fields w := by
    rw [← BitVec.toNat_inj, (toNat_encIO (land_mask_idem _ _) _ _).1, land_0xF800, regD_val, toNat_ioA6]
    omega
  fits_fields _ := rfl
  land_enc base x hbase _ := by
    obtain ⟨hw, hlt⟩ := toNat_encIO hbase x.1 x.2
    exact encoded_land hw hbase (land_high_eq_zero 31 hlt)
  fields_enc base x hbase _ := by
    have := base_0xF800 hbase
    simp only [Prod.ext_iff, Fin.ext_iff, ← BitVec.toNat_inj, regD_val, toNat_ioA6, (toNat_encIO hbase x.1 x.2).1]
    omega

/-- Format IOB (R99). -/
def Format.iob : Format (BitVec 5 × Fin 8) where
  mask := 0xFF00
  enc base x := encIOB base x.1 x.2
  fields w := (ioA5 w, bitB w)
  fits _ := true
  enc_fields w := by
    rw [← BitVec.toNat_inj, (toNat_encIOB (land_mask_idem _ _) _ _).1, land_0xFF00, toNat_ioA5, bitB_val]
    omega
  fits_fields _ := rfl
  land_enc base x hbase _ := by
    obtain ⟨hw, hlt⟩ := toNat_encIOB hbase x.1 x.2
    exact encoded_land hw hbase (land_high_eq_zero 255 hlt)
  fields_enc base x hbase _ := by
    have := base_0xFF00 hbase
    simp only [Prod.ext_iff, Fin.ext_iff, ← BitVec.toNat_inj, toNat_ioA5, bitB_val, (toNat_encIOB hbase x.1 x.2).1]
    omega

/-- Format RB (R100). -/
def Format.rb : Format (Reg × Fin 8) where
  mask := 0xFE08
  enc base x := encRB base x.1 x.2
  fields w := (regD w, bitB w)
  fits _ := true
  enc_fields w := by
    rw [← BitVec.toNat_inj, toNat_encRB (land_mask_idem _ _), land_0xFE08, regD_val, bitB_val]
    omega
  fits_fields _ := rfl
  land_enc base x hbase _ := encoded_land (toNat_encRB hbase x.1 x.2) hbase (by rw [land_0xFE08]; omega)
  fields_enc base x hbase _ := by
    have := base_0xFE08 hbase
    simp only [Prod.ext_iff, Fin.ext_iff, regD_val, bitB_val, toNat_encRB hbase]
    omega

/-- Format BR (R101). -/
def Format.br : Format (Fin 8 × BitVec 7) where
  mask := 0xFC00
  enc base x := encBR base x.1 x.2
  fields w := (bitB w, relK7 w)
  fits _ := true
  enc_fields w := by
    rw [← BitVec.toNat_inj, (toNat_encBR (land_mask_idem _ _) _ _).1, land_0xFC00, bitB_val, toNat_relK7]
    omega
  fits_fields _ := rfl
  land_enc base x hbase _ := by
    obtain ⟨hw, hlt⟩ := toNat_encBR hbase x.1 x.2
    exact encoded_land hw hbase (land_high_eq_zero 63 hlt)
  fields_enc base x hbase _ := by
    have := base_0xFC00 hbase
    simp only [Prod.ext_iff, Fin.ext_iff, ← BitVec.toNat_inj, bitB_val, toNat_relK7, (toNat_encBR hbase x.1 x.2).1]
    omega

/-- Format REL12 (R101). -/
def Format.rel12 : Format (BitVec 12) where
  mask := 0xF000
  enc := encRel12
  fields := relK12
  fits _ := true
  enc_fields w := by
    rw [← BitVec.toNat_inj, toNat_encRel12 (land_mask_idem _ _), land_0xF000, toNat_relK12]
    omega
  fits_fields _ := rfl
  land_enc base k hbase _ := encoded_land (toNat_encRel12 hbase k) hbase (land_high_eq_zero 15 k.isLt)
  fields_enc base k hbase _ := by
    have := base_0xF000 hbase
    rw [← BitVec.toNat_inj, toNat_relK12, toNat_encRel12 hbase]
    omega

/-- Format SREG (R102). -/
def Format.sreg : Format (Fin 8) where
  mask := 0xFF8F
  enc := encSreg
  fields := sregBit
  fits _ := true
  enc_fields w := by
    rw [← BitVec.toNat_inj, toNat_encSreg (land_mask_idem _ _), land_0xFF8F, sregBit_val]
    omega
  fits_fields _ := rfl
  land_enc base b hbase _ := encoded_land (toNat_encSreg hbase b) hbase (by rw [land_0xFF8F]; omega)
  fields_enc base b hbase _ := by
    have := base_0xFF8F hbase
    rw [Fin.ext_iff, sregBit_val, toNat_encSreg hbase]
    omega

/-- Format IW (R103). -/
def Format.iw : Format (Reg × BitVec 6) where
  mask := 0xFF00
  enc base x := encIW base x.1 x.2
  fields w := (regDPair w, wordK w)
  fits x := x.1.isWordPair
  enc_fields w := by
    rw [← BitVec.toNat_inj, (toNat_encIW (land_mask_idem _ _) _ _ (by rw [regDPair_val]; omega)).1, land_0xFF00, regDPair_val,
      toNat_wordK]
    omega
  fits_fields w := by simp [Reg.isWordPair, regDPair_val]
  land_enc base x hbase hfits := by
    obtain ⟨hd, -⟩ : 24 ≤ x.1.val ∧ x.1.val % 2 = 0 := of_decide_eq_true hfits
    obtain ⟨hw, hlt⟩ := toNat_encIW hbase x.1 x.2 hd
    exact encoded_land hw hbase (land_high_eq_zero 255 hlt)
  fields_enc base x hbase hfits := by
    obtain ⟨hd, heven⟩ : 24 ≤ x.1.val ∧ x.1.val % 2 = 0 := of_decide_eq_true hfits
    have := base_0xFF00 hbase
    simp only [Prod.ext_iff, Fin.ext_iff, ← BitVec.toNat_inj, regDPair_val, toNat_wordK, (toNat_encIW hbase x.1 x.2 hd).1]
    omega

/-- Format MOVW (R103). -/
def Format.movw : Format (Reg × Reg) where
  mask := 0xFF00
  enc base x := encMovw base x.1 x.2
  fields w := (regDEven w, regREven w)
  fits x := x.1.isEven && x.2.isEven
  enc_fields w := by
    rw [← BitVec.toNat_inj, (toNat_encMovw (land_mask_idem _ _) _ _).1, land_0xFF00, regDEven_val, regREven_val]
    omega
  fits_fields w := by simp [Reg.isEven, regDEven_val, regREven_val]
  land_enc base x hbase _ := by
    obtain ⟨hw, hlt⟩ := toNat_encMovw hbase x.1 x.2
    exact encoded_land hw hbase (land_high_eq_zero 255 hlt)
  fields_enc base x hbase hfits := by
    have := base_0xFF00 hbase
    simp only [Reg.isEven, Bool.and_eq_true, decide_eq_true_iff] at hfits
    simp only [Prod.ext_iff, Fin.ext_iff, regDEven_val, regREven_val, (toNat_encMovw hbase x.1 x.2).1]
    omega

/-- Format MULS (R103). -/
def Format.muls : Format (Reg × Reg) where
  mask := 0xFF00
  enc base x := encMuls base x.1 x.2
  fields w := (regDUpper w, regRUpper w)
  fits x := x.1.isUpper && x.2.isUpper
  enc_fields w := by
    rw [← BitVec.toNat_inj, (toNat_encMuls (land_mask_idem _ _) _ _ (by rw [regDUpper_val]; omega)
      (by rw [regRUpper_val]; omega)).1, land_0xFF00, regDUpper_val, regRUpper_val]
    omega
  fits_fields w := by simp [Reg.isUpper, regDUpper_val, regRUpper_val]
  land_enc base x hbase hfits := by
    simp only [Reg.isUpper, Bool.and_eq_true, decide_eq_true_iff] at hfits
    obtain ⟨hw, hlt⟩ := toNat_encMuls hbase x.1 x.2 hfits.1 hfits.2
    exact encoded_land hw hbase (land_high_eq_zero 255 hlt)
  fields_enc base x hbase hfits := by
    have := base_0xFF00 hbase
    simp only [Reg.isUpper, Bool.and_eq_true, decide_eq_true_iff] at hfits
    simp only [Prod.ext_iff, Fin.ext_iff, regDUpper_val, regRUpper_val, (toNat_encMuls hbase x.1 x.2 hfits.1 hfits.2).1]
    omega

/-- Format MUL3 (R103). -/
def Format.mul3 : Format (Reg × Reg) where
  mask := 0xFF88
  enc base x := encMul3 base x.1 x.2
  fields w := (regDMul3 w, regRMul3 w)
  fits x := x.1.isMul3 && x.2.isMul3
  enc_fields w := by
    rw [← BitVec.toNat_inj, toNat_encMul3 (land_mask_idem _ _) _ _ (by rw [regDMul3_val]; omega) (by rw [regRMul3_val]; omega),
      land_0xFF88, regDMul3_val, regRMul3_val]
    omega
  fits_fields w := by
    simp only [Reg.isMul3, regDMul3_val, regRMul3_val, Bool.and_eq_true, decide_eq_true_iff]
    omega
  land_enc base x hbase hfits := by
    simp only [Reg.isMul3, Bool.and_eq_true, decide_eq_true_iff] at hfits
    refine encoded_land (toNat_encMul3 hbase x.1 x.2 hfits.1 hfits.2) hbase ?_
    rw [land_0xFF88]
    omega
  fields_enc base x hbase hfits := by
    have := base_0xFF88 hbase
    simp only [Reg.isMul3, Bool.and_eq_true, decide_eq_true_iff] at hfits
    simp only [Prod.ext_iff, Fin.ext_iff, regDMul3_val, regRMul3_val, toNat_encMul3 hbase x.1 x.2 hfits.1 hfits.2]
    omega

/-- A row without operands. -/
def Format.fixed : Format Unit where
  mask := 0xFFFF
  enc base _ := BitVec.ofNat 16 base
  fields _ := ()
  fits _ := true
  enc_fields w := by rw [land_0xFFFF, Nat.mod_eq_of_lt w.isLt, BitVec.ofNat_toNat, BitVec.setWidth_eq]
  fits_fields _ := rfl
  land_enc base _ hbase _ := by
    rw [land_0xFFFF] at hbase ⊢
    rw [BitVec.toNat_ofNat, Nat.mod_mod, hbase]
  fields_enc _ _ _ _ := rfl

/-! ### The rows are pairwise disjoint (R94) -/

/-- Two patterns that no word has both of: they disagree on a bit that both fix. -/
def patternsClash (p q : Nat × Nat) : Bool := p.2 &&& q.1 != q.2 &&& p.1

theorem not_hit_of_clash {p q : Nat × Nat} {n : Nat} (hc : patternsClash p q = true) (hp : n &&& p.1 = p.2) : n &&& q.1 ≠ q.2 := by
  intro hq
  refine bne_iff_ne.mp hc ?_
  rw [← hp, ← hq, Nat.land_assoc, Nat.land_assoc, Nat.land_comm p.1]

def DecodeRow.pattern (row : DecodeRow) : Nat × Nat := (row.mask, row.mtch)

theorem DecodeRow.hits_iff (row : DecodeRow) (w : Word) : row.hits w = true ↔ w.toNat &&& row.pattern.1 = row.pattern.2 :=
  beq_iff_eq

theorem decodeTable_pairwise_clash :
    (decodeTable.map DecodeRow.pattern).Pairwise fun p q => patternsClash p q = true := by
  decide +kernel

theorem findRow_some {rows : List DecodeRow} {w : Word} {row : DecodeRow} (h : findRow rows w = some row) :
    row ∈ rows ∧ row.hits w = true := by
  induction rows with
  | nil => cases h
  | cons first rows ih =>
    rw [findRow] at h
    split at h
    case isTrue hit =>
      cases h
      exact ⟨List.mem_cons_self, hit⟩
    case isFalse =>
      obtain ⟨hmem, hhits⟩ := ih h
      exact ⟨List.mem_cons_of_mem _ hmem, hhits⟩

theorem findRow_none_iff {rows : List DecodeRow} {w : Word} :
    findRow rows w = none ↔ ∀ row ∈ rows, row.hits w = false := by
  induction rows with
  | nil => simp [findRow]
  | cons first rows ih => cases hf : first.hits w <;> simp [findRow, hf, ih]

/-- Of disjoint rows the one that a word matches is the one found. -/
theorem findRow_of_hits {rows : List DecodeRow} {w : Word} {row : DecodeRow}
    (hclash : (rows.map DecodeRow.pattern).Pairwise fun p q => patternsClash p q = true) (hmem : row ∈ rows)
    (hhits : row.hits w = true) : findRow rows w = some row := by
  induction rows with
  | nil => cases hmem
  | cons first rows ih =>
    rw [List.map_cons, List.pairwise_cons] at hclash
    obtain ⟨hfirst, hrest⟩ := hclash
    rcases List.mem_cons.mp hmem with rfl | hmem
    · rw [findRow, if_pos hhits]
    · have hmiss : ¬ first.hits w = true := fun hit =>
        not_hit_of_clash (hfirst _ (List.mem_map_of_mem hmem)) ((first.hits_iff w).mp hit) ((row.hits_iff w).mp hhits)
      rw [findRow, if_neg hmiss, ih hrest hmem]

theorem decodeWords_eq_some_iff {w w1 : Word} {i : Instr} :
    decodeWords w w1 = some i ↔ ∃ row ∈ decodeTable, row.hits w = true ∧ row.build w w1 = i := by
  unfold decodeWords
  constructor
  · intro h
    split at h
    case h_1 row hrow =>
      obtain ⟨hmem, hhits⟩ := findRow_some hrow
      exact ⟨row, hmem, hhits, Option.some.inj h⟩
    case h_2 => cases h
  · rintro ⟨row, hmem, hhits, rfl⟩
    rw [findRow_of_hits decodeTable_pairwise_clash hmem hhits]

theorem decodeWords_eq_none_iff {w w1 : Word} : decodeWords w w1 = none ↔ ∀ row ∈ decodeTable, row.hits w = false := by
  rw [← findRow_none_iff]
  unfold decodeWords
  cases findRow decodeTable w <;> simp

/-! ### Encode of decode -/

/-- The patterns of the two-word rows: LDS, STS, JMP, CALL (R92). -/
def longPatterns : List (Nat × Nat) := [(0xFE0F, 0x9000), (0xFE0F, 0x9200), (0xFE0E, 0x940C), (0xFE0E, 0x940E)]

theorem isLongWord_iff (w : Word) : isLongWord w = true ↔ ∃ p ∈ longPatterns, w.toNat &&& p.1 = p.2 := by
  simp [isLongWord, longPatterns, or_assoc]

theorem isLongWord_of_hit {w : Word} {p : Nat × Nat} (hp : p ∈ longPatterns) (hw : w.toNat &&& p.1 = p.2) :
    isLongWord w = true :=
  (isLongWord_iff w).mpr ⟨p, hp, hw⟩

theorem isLongWord_of_clash {w : Word} {p : Nat × Nat} (hclash : longPatterns.all (patternsClash p) = true)
    (hw : w.toNat &&& p.1 = p.2) : isLongWord w = false := by
  rw [Bool.eq_false_iff, ne_eq, isLongWord_iff]
  rintro ⟨q, hq, hwq⟩
  exact not_hit_of_clash (List.all_eq_true.mp hclash q hq) hw hwq

/-- The instruction `i` is the one that the words spell, and they are its only encoding. -/
def SpelledBy (w w1 : Word) (i : Instr) : Prop :=
  i.wellFormed = true ∧ i.canonical = i ∧ encode i = (if isLongWord w = true then [w, w1] else [w]) ∧
    i.len = (if isLongWord w = true then 2 else 1)

/-- Encoding what a row assembles gives back the words it was assembled from. -/
def DecodeRow.Sound (row : DecodeRow) : Prop := ∀ w w1 : Word, row.hits w = true → SpelledBy w w1 (row.build w w1)

/-- A one-word instruction that is no synonym row, with its encoding. -/
structure EncodesShort (i : Instr) (w : Word) (fits : Bool) : Prop where
  wellFormed : i.wellFormed = fits
  canonical : i.canonical = i
  encode : encode i = [w]
  len : i.len = 1

/-- LDS and STS, with their encoding. -/
structure EncodesLong (i : Instr) (w w1 : Word) : Prop where
  wellFormed : i.wellFormed = true
  canonical : i.canonical = i
  encode : encode i = [w, w1]
  len : i.len = 2

theorem DecodeRow.Sound.short {α : Type} {base : Nat} (F : Format α) (f : α → Instr)
    (hf : ∀ a, EncodesShort (f a) (F.enc base a) (F.fits a))
    (hclash : longPatterns.all (patternsClash (F.mask, base)) = true) :
    DecodeRow.Sound ⟨F.mask, base, fun w _ => f (F.fields w)⟩ := by
  intro w w1 hits
  have hw : w.toNat &&& F.mask = base := beq_iff_eq.mp hits
  have hshort := isLongWord_of_clash hclash hw
  have hi := hf (F.fields w)
  refine ⟨hi.wellFormed.trans (F.fits_fields w), hi.canonical, ?_, ?_⟩
  · rw [hshort, if_neg Bool.false_ne_true, hi.encode, ← hw, F.enc_fields]
  · rw [hshort, if_neg Bool.false_ne_true, hi.len]

theorem DecodeRow.Sound.long {base : Nat} (f : Reg → Word → Instr) (hf : ∀ d k, EncodesLong (f d k) (encD base d) k)
    (hlong : (0xFE0F, base) ∈ longPatterns) : DecodeRow.Sound ⟨0xFE0F, base, fun w w1 => f (regD w) w1⟩ := by
  intro w w1 hits
  have hw : w.toNat &&& 0xFE0F = base := beq_iff_eq.mp hits
  have hlong := isLongWord_of_hit hlong hw
  have hi := hf (regD w) w1
  refine ⟨hi.wellFormed, hi.canonical, ?_, ?_⟩
  · rw [if_pos hlong, hi.encode, ← hw]
    exact congrArg (fun x => [x, w1]) (Format.d.enc_fields w)
  · rw [if_pos hlong, hi.len]

/-! JMP and CALL spread their operand over both words (R104). -/

theorem encJmp_farK (w w1 : Word) :
    encJmp (w.toNat &&& 0xFE0E) (farK w w1) = w ∧ (farK w w1).extractLsb' 0 16 = w1 := by
  have hk := toNat_farK w w1
  have hhigh : (farK w w1).toNat / 131072 = w.toNat / 16 % 32 := by omega
  have hmid : (farK w w1).toNat / 65536 % 2 = w.toNat % 2 := by omega
  constructor
  · rw [← BitVec.toNat_inj, toNat_encJmp (land_mask_idem _ _), hhigh, hmid, land_0xFE0E]
    clear hk hhigh hmid
    omega
  · rw [← BitVec.toNat_inj, BitVec.extractLsb'_toNat, Nat.shiftRight_zero, hk]
    omega

theorem jmpOperands_land {a b : Nat} (ha : a < 32) (hb : b < 2) : a * 16 + b &&& 0xFE0E = 0 := by
  rw [land_0xFE0E]
  omega

theorem farK_encJmp {base : Nat} (h : base &&& 0xFE0E = base) (k : BitVec 22) :
    (encJmp base k).toNat &&& 0xFE0E = base ∧ farK (encJmp base k) (k.extractLsb' 0 16) = k := by
  have hw := toNat_encJmp h k
  have hbase := base_0xFE0E h
  have hk : k.toNat / 131072 < 32 := Nat.div_lt_of_lt_mul k.isLt
  have hlow : (k.extractLsb' 0 16).toNat = k.toNat % 65536 := by
    rw [BitVec.extractLsb'_toNat, Nat.shiftRight_zero]
  constructor
  · exact encoded_land hw h (jmpOperands_land hk (Nat.mod_lt _ (by decide)))
  · have hhigh : (encJmp base k).toNat / 16 % 32 = k.toNat / 131072 := by omega
    have hmid : (encJmp base k).toNat % 2 = k.toNat / 65536 % 2 := by omega
    rw [← BitVec.toNat_inj, toNat_farK, hhigh, hmid, hlow]
    clear hw hhigh hmid hlow
    omega

theorem DecodeRow.Sound.jmp {base : Nat} (f : BitVec 22 → Instr)
    (hf : ∀ k, EncodesLong (f k) (encJmp base k) (k.extractLsb' 0 16))
    (hlong : (0xFE0E, base) ∈ longPatterns) : DecodeRow.Sound ⟨0xFE0E, base, fun w w1 => f (farK w w1)⟩ := by
  intro w w1 hits
  have hw : w.toNat &&& 0xFE0E = base := beq_iff_eq.mp hits
  have hlong := isLongWord_of_hit hlong hw
  have hi := hf (farK w w1)
  obtain ⟨hfirst, hsecond⟩ := encJmp_farK w w1
  refine ⟨hi.wellFormed, hi.canonical, ?_, ?_⟩
  · rw [if_pos hlong, hi.encode, ← hw, hfirst, hsecond]
  · rw [if_pos hlong, hi.len]

theorem decodeTableAluBranch_sound : ∀ row ∈ decodeTableAluBranch, row.Sound := by
  simp only [decodeTableAluBranch, List.forall_mem_cons, List.not_mem_nil, false_imp_iff, implies_true, and_true]
  exact ⟨
    .short .rr (fun x => .add x.1 x.2) (fun _ => ⟨rfl, rfl, rfl, rfl⟩) rfl,
    .short .rr (fun x => .adc x.1 x.2) (fun _ => ⟨rfl, rfl, rfl, rfl⟩) rfl,
    .short .rr (fun x => .sub x.1 x.2) (fun _ => ⟨rfl, rfl, rfl, rfl⟩) rfl,
    .short .ri (fun x => .subi x.1 x.2) (fun _ => ⟨rfl, rfl, rfl, rfl⟩) rfl,
    .short .rr (fun x => .sbc x.1 x.2) (fun _ => ⟨rfl, rfl, rfl, rfl⟩) rfl,
    .short .ri (fun x => .sbci x.1 x.2) (fun _ => ⟨rfl, rfl, rfl, rfl⟩) rfl,
    .short .rr (fun x => .and x.1 x.2) (fun _ => ⟨rfl, rfl, rfl, rfl⟩) rfl,
    .short .ri (fun x => .andi x.1 x.2) (fun _ => ⟨rfl, rfl, rfl, rfl⟩) rfl,
    .short .rr (fun x => .or x.1 x.2) (fun _ => ⟨rfl, rfl, rfl, rfl⟩) rfl,
    .short .ri (fun x => .ori x.1 x.2) (fun _ => ⟨rfl, rfl, rfl, rfl⟩) rfl,
    .short .rr (fun x => .eor x.1 x.2) (fun _ => ⟨rfl, rfl, rfl, rfl⟩) rfl,
    .short .d .com (fun _ => ⟨rfl, rfl, rfl, rfl⟩) rfl,
    .short .d .neg (fun _ => ⟨rfl, rfl, rfl, rfl⟩) rfl,
    .short .d .inc (fun _ => ⟨rfl, rfl, rfl, rfl⟩) rfl,
    .short .d .dec (fun _ => ⟨rfl, rfl, rfl, rfl⟩) rfl,
    .short .rel12 .rjmp (fun _ => ⟨rfl, rfl, rfl, rfl⟩) rfl,
    .short .rel12 .rcall (fun _ => ⟨rfl, rfl, rfl, rfl⟩) rfl,
    .short .fixed (fun _ => .ret) (fun _ => ⟨rfl, rfl, rfl, rfl⟩) rfl,
    .short .fixed (fun _ => .reti) (fun _ => ⟨rfl, rfl, rfl, rfl⟩) rfl,
    .short .rr (fun x => .cpse x.1 x.2) (fun _ => ⟨rfl, rfl, rfl, rfl⟩) rfl,
    .short .rr (fun x => .cp x.1 x.2) (fun _ => ⟨rfl, rfl, rfl, rfl⟩) rfl,
    .short .rr (fun x => .cpc x.1 x.2) (fun _ => ⟨rfl, rfl, rfl, rfl⟩) rfl,
    .short .ri (fun x => .cpi x.1 x.2) (fun _ => ⟨rfl, rfl, rfl, rfl⟩) rfl,
    .short .rb (fun x => .sbrc x.1 x.2) (fun _ => ⟨rfl, rfl, rfl, rfl⟩) rfl,
    .short .rb (fun x => .sbrs x.1 x.2) (fun _ => ⟨rfl, rfl, rfl, rfl⟩) rfl,
    .short .iob (fun x => .sbic x.1 x.2) (fun _ => ⟨rfl, rfl, rfl, rfl⟩) rfl,
    .short .iob (fun x => .sbis x.1 x.2) (fun _ => ⟨rfl, rfl, rfl, rfl⟩) rfl,
    .short .br (fun x => .brbs x.1 x.2) (fun _ => ⟨rfl, rfl, rfl, rfl⟩) rfl,
    .short .br (fun x => .brbc x.1 x.2) (fun _ => ⟨rfl, rfl, rfl, rfl⟩) rfl⟩

theorem decodeTableMoveBit_sound : ∀ row ∈ decodeTableMoveBit, row.Sound := by
  simp only [decodeTableMoveBit, List.forall_mem_cons, List.not_mem_nil, false_imp_iff, implies_true, and_true]
  exact ⟨
    .short .rr (fun x => .mov x.1 x.2) (fun _ => ⟨rfl, rfl, rfl, rfl⟩) rfl,
    .short .ri (fun x => .ldi x.1 x.2) (fun _ => ⟨rfl, rfl, rfl, rfl⟩) rfl,
    .short .io (fun x => .inIo x.1 x.2) (fun _ => ⟨rfl, rfl, rfl, rfl⟩) rfl,
    .short .io (fun x => .outIo x.2 x.1) (fun _ => ⟨rfl, rfl, rfl, rfl⟩) rfl,
    .short .iob (fun x => .sbi x.1 x.2) (fun _ => ⟨rfl, rfl, rfl, rfl⟩) rfl,
    .short .iob (fun x => .cbi x.1 x.2) (fun _ => ⟨rfl, rfl, rfl, rfl⟩) rfl,
    .short .d .lsr (fun _ => ⟨rfl, rfl, rfl, rfl⟩) rfl,
    .short .d .ror (fun _ => ⟨rfl, rfl, rfl, rfl⟩) rfl,
    .short .d .asr (fun _ => ⟨rfl, rfl, rfl, rfl⟩) rfl,
    .short .d .swap (fun _ => ⟨rfl, rfl, rfl, rfl⟩) rfl,
    .short .sreg .bset (fun _ => ⟨rfl, rfl, rfl, rfl⟩) rfl,
    .short .sreg .bclr (fun _ => ⟨rfl, rfl, rfl, rfl⟩) rfl,
    .short .rb (fun x => .bst x.1 x.2) (fun _ => ⟨rfl, rfl, rfl, rfl⟩) rfl,
    .short .rb (fun x => .bld x.1 x.2) (fun _ => ⟨rfl, rfl, rfl, rfl⟩) rfl,
    .short .fixed (fun _ => .nop) (fun _ => ⟨rfl, rfl, rfl, rfl⟩) rfl,
    .short .fixed (fun _ => .sleep) (fun _ => ⟨rfl, rfl, rfl, rfl⟩) rfl,
    .short .fixed (fun _ => .wdr) (fun _ => ⟨rfl, rfl, rfl, rfl⟩) rfl⟩

theorem decodeTableAvr2_sound : ∀ row ∈ decodeTableAvr2, row.Sound := by
  simp only [decodeTableAvr2, List.forall_mem_cons, List.not_mem_nil, false_imp_iff, implies_true, and_true]
  exact ⟨
    .short .fixed (fun _ => .lpm) (fun _ => ⟨rfl, rfl, rfl, rfl⟩) rfl,
    .short .iw (fun x => .adiw x.1 x.2) (fun _ => ⟨rfl, rfl, rfl, rfl⟩) rfl,
    .short .iw (fun x => .sbiw x.1 x.2) (fun _ => ⟨rfl, rfl, rfl, rfl⟩) rfl,
    .short .fixed (fun _ => .ijmp) (fun _ => ⟨rfl, rfl, rfl, rfl⟩) rfl,
    .short .fixed (fun _ => .icall) (fun _ => ⟨rfl, rfl, rfl, rfl⟩) rfl,
    .long (fun d k => .lds d k) (fun _ _ => ⟨rfl, rfl, rfl, rfl⟩) (by decide),
    .short .d .ldX (fun _ => ⟨rfl, rfl, rfl, rfl⟩) rfl,
    .short .d .ldXInc (fun _ => ⟨rfl, rfl, rfl, rfl⟩) rfl,
    .short .d .ldXDec (fun _ => ⟨rfl, rfl, rfl, rfl⟩) rfl,
    .short .d .ldYInc (fun _ => ⟨rfl, rfl, rfl, rfl⟩) rfl,
    .short .d .ldYDec (fun _ => ⟨rfl, rfl, rfl, rfl⟩) rfl,
    .short .ldd (fun x => .lddY x.1 x.2) (fun _ => ⟨rfl, rfl, rfl, rfl⟩) rfl,
    .short .d .ldZInc (fun _ => ⟨rfl, rfl, rfl, rfl⟩) rfl,
    .short .d .ldZDec (fun _ => ⟨rfl, rfl, rfl, rfl⟩) rfl,
    .short .ldd (fun x => .lddZ x.1 x.2) (fun _ => ⟨rfl, rfl, rfl, rfl⟩) rfl,
    .long (fun d k => .sts k d) (fun _ _ => ⟨rfl, rfl, rfl, rfl⟩) (by decide),
    .short .d .stX (fun _ => ⟨rfl, rfl, rfl, rfl⟩) rfl,
    .short .d .stXInc (fun _ => ⟨rfl, rfl, rfl, rfl⟩) rfl,
    .short .d .stXDec (fun _ => ⟨rfl, rfl, rfl, rfl⟩) rfl,
    .short .d .stYInc (fun _ => ⟨rfl, rfl, rfl, rfl⟩) rfl,
    .short .d .stYDec (fun _ => ⟨rfl, rfl, rfl, rfl⟩) rfl,
    .short .ldd (fun x => .stdY x.2 x.1) (fun _ => ⟨rfl, rfl, rfl, rfl⟩) rfl,
    .short .d .stZInc (fun _ => ⟨rfl, rfl, rfl, rfl⟩) rfl,
    .short .d .stZDec (fun _ => ⟨rfl, rfl, rfl, rfl⟩) rfl,
    .short .ldd (fun x => .stdZ x.2 x.1) (fun _ => ⟨rfl, rfl, rfl, rfl⟩) rfl,
    .short .d .push (fun _ => ⟨rfl, rfl, rfl, rfl⟩) rfl,
    .short .d .pop (fun _ => ⟨rfl, rfl, rfl, rfl⟩) rfl,
    .jmp .jmp (fun _ => ⟨rfl, rfl, rfl, rfl⟩) (by decide),
    .jmp .call (fun _ => ⟨rfl, rfl, rfl, rfl⟩) (by decide),
    .short .fixed (fun _ => .elpm) (fun _ => ⟨rfl, rfl, rfl, rfl⟩) rfl⟩

theorem decodeTableAvr4_sound : ∀ row ∈ decodeTableAvr4, row.Sound := by
  simp only [decodeTableAvr4, List.forall_mem_cons, List.not_mem_nil, false_imp_iff, implies_true, and_true]
  exact ⟨
    .short .rr (fun x => .mul x.1 x.2) (fun _ => ⟨rfl, rfl, rfl, rfl⟩) rfl,
    .short .muls (fun x => .muls x.1 x.2) (fun _ => ⟨rfl, rfl, rfl, rfl⟩) rfl,
    .short .mul3 (fun x => .mulsu x.1 x.2) (fun _ => ⟨rfl, rfl, rfl, rfl⟩) rfl,
    .short .mul3 (fun x => .fmul x.1 x.2) (fun _ => ⟨rfl, rfl, rfl, rfl⟩) rfl,
    .short .mul3 (fun x => .fmuls x.1 x.2) (fun _ => ⟨rfl, rfl, rfl, rfl⟩) rfl,
    .short .mul3 (fun x => .fmulsu x.1 x.2) (fun _ => ⟨rfl, rfl, rfl, rfl⟩) rfl,
    .short .movw (fun x => .movw x.1 x.2) (fun _ => ⟨rfl, rfl, rfl, rfl⟩) rfl,
    .short .d .lpmZ (fun _ => ⟨rfl, rfl, rfl, rfl⟩) rfl,
    .short .d .lpmZInc (fun _ => ⟨rfl, rfl, rfl, rfl⟩) rfl,
    .short .fixed (fun _ => .spm) (fun _ => ⟨rfl, rfl, rfl, rfl⟩) rfl,
    .short .fixed (fun _ => .brk) (fun _ => ⟨rfl, rfl, rfl, rfl⟩) rfl,
    .short .d .elpmZ (fun _ => ⟨rfl, rfl, rfl, rfl⟩) rfl,
    .short .d .elpmZInc (fun _ => ⟨rfl, rfl, rfl, rfl⟩) rfl,
    .short .fixed (fun _ => .eijmp) (fun _ => ⟨rfl, rfl, rfl, rfl⟩) rfl,
    .short .fixed (fun _ => .eicall) (fun _ => ⟨rfl, rfl, rfl, rfl⟩) rfl⟩

theorem decodeTable_sound : ∀ row ∈ decodeTable, row.Sound := by
  simp only [decodeTable, List.forall_mem_append]
  exact ⟨⟨⟨decodeTableAluBranch_sound, decodeTableMoveBit_sound⟩, decodeTableAvr2_sound⟩, decodeTableAvr4_sound⟩

theorem spelledBy_of_decodeWords {w w1 : Word} {i : Instr} (h : decodeWords w w1 = some i) : SpelledBy w w1 i := by
  obtain ⟨row, hmem, hhits, rfl⟩ := decodeWords_eq_some_iff.mp h
  exact decodeTable_sound row hmem w w1 hhits

/-- Settles O3: the row found is sound. -/
theorem encodeOfDecode : Obligations.EncodeOfDecode := by
  unfold Obligations.EncodeOfDecode
  intro w w1 i h
  exact spelledBy_of_decodeWords h

/-! ### Decode of encode -/

/-- Some words decode to `i`; where they are one word, the word after it is not looked at. -/
def Decodable (i : Instr) : Prop := ∃ w w1, decodeWords w w1 = some i ∧ (isLongWord w = true ∨ w1 = 0#16)

theorem decodeTable_mem {row : DecodeRow} (n : Nat) (h : decodeTable[n]? = some row) : row ∈ decodeTable :=
  List.mem_of_getElem? h

/-- The instructions of row `n` of format `F` are decodable. -/
theorem Decodable.short {α : Type} {base : Nat} (n : Nat) (F : Format α) (f : α → Instr)
    (hrow : decodeTable[n]? = some ⟨F.mask, base, fun w _ => f (F.fields w)⟩) (hbase : base &&& F.mask = base) (a : α)
    (hfits : F.fits a = true) : Decodable (f a) := by
  refine ⟨F.enc base a, 0#16, decodeWords_eq_some_iff.mpr ⟨_, decodeTable_mem n hrow, ?_, ?_⟩, .inr rfl⟩
  · exact beq_iff_eq.mpr (F.land_enc base a hbase hfits)
  · exact congrArg f (F.fields_enc base a hbase hfits)

theorem Decodable.long {base : Nat} (n : Nat) (f : Reg → Word → Instr)
    (hrow : decodeTable[n]? = some ⟨0xFE0F, base, fun w w1 => f (regD w) w1⟩) (hbase : base &&& 0xFE0F = base)
    (hlong : (0xFE0F, base) ∈ longPatterns) (d : Reg) (k : Word) : Decodable (f d k) := by
  have hland : (encD base d).toNat &&& 0xFE0F = base := Format.d.land_enc base d hbase rfl
  refine ⟨encD base d, k, decodeWords_eq_some_iff.mpr ⟨_, decodeTable_mem n hrow, beq_iff_eq.mpr hland, ?_⟩,
    .inl (isLongWord_of_hit hlong hland)⟩
  exact congrArg (f · k) (Format.d.fields_enc base d hbase rfl)

theorem Decodable.jmp {base : Nat} (n : Nat) (f : BitVec 22 → Instr)
    (hrow : decodeTable[n]? = some ⟨0xFE0E, base, fun w w1 => f (farK w w1)⟩) (hbase : base &&& 0xFE0E = base)
    (hlong : (0xFE0E, base) ∈ longPatterns) (k : BitVec 22) : Decodable (f k) := by
  obtain ⟨hland, hk⟩ := farK_encJmp hbase k
  exact ⟨encJmp base k, k.extractLsb' 0 16, decodeWords_eq_some_iff.mpr ⟨_, decodeTable_mem n hrow, beq_iff_eq.mpr hland,
    congrArg f hk⟩, .inl (isLongWord_of_hit hlong hland)⟩

/-- Every well-formed instruction that is no synonym row is what its row of the opcode map assembles from some word. -/
theorem decodable_of_canonical {i : Instr} (hwf : i.wellFormed = true) (hcanonical : i.canonical = i) : Decodable i := by
  cases i
  case add d r => exact .short 0 .rr (fun x => .add x.1 x.2) rfl rfl (d, r) hwf
  case adc d r => exact .short 1 .rr (fun x => .adc x.1 x.2) rfl rfl (d, r) hwf
  case sub d r => exact .short 2 .rr (fun x => .sub x.1 x.2) rfl rfl (d, r) hwf
  case subi d k => exact .short 3 .ri (fun x => .subi x.1 x.2) rfl rfl (d, k) hwf
  case sbc d r => exact .short 4 .rr (fun x => .sbc x.1 x.2) rfl rfl (d, r) hwf
  case sbci d k => exact .short 5 .ri (fun x => .sbci x.1 x.2) rfl rfl (d, k) hwf
  case and d r => exact .short 6 .rr (fun x => .and x.1 x.2) rfl rfl (d, r) hwf
  case andi d k => exact .short 7 .ri (fun x => .andi x.1 x.2) rfl rfl (d, k) hwf
  case or d r => exact .short 8 .rr (fun x => .or x.1 x.2) rfl rfl (d, r) hwf
  case ori d k => exact .short 9 .ri (fun x => .ori x.1 x.2) rfl rfl (d, k) hwf
  case eor d r => exact .short 10 .rr (fun x => .eor x.1 x.2) rfl rfl (d, r) hwf
  case com d => exact .short 11 .d .com rfl rfl d hwf
  case neg d => exact .short 12 .d .neg rfl rfl d hwf
  case inc d => exact .short 13 .d .inc rfl rfl d hwf
  case dec d => exact .short 14 .d .dec rfl rfl d hwf
  case rjmp k => exact .short 15 .rel12 .rjmp rfl rfl k hwf
  case rcall k => exact .short 16 .rel12 .rcall rfl rfl k hwf
  case ret => exact .short 17 .fixed (fun _ => .ret) rfl rfl () hwf
  case reti => exact .short 18 .fixed (fun _ => .reti) rfl rfl () hwf
  case cpse d r => exact .short 19 .rr (fun x => .cpse x.1 x.2) rfl rfl (d, r) hwf
  case cp d r => exact .short 20 .rr (fun x => .cp x.1 x.2) rfl rfl (d, r) hwf
  case cpc d r => exact .short 21 .rr (fun x => .cpc x.1 x.2) rfl rfl (d, r) hwf
  case cpi d k => exact .short 22 .ri (fun x => .cpi x.1 x.2) rfl rfl (d, k) hwf
  case sbrc r b => exact .short 23 .rb (fun x => .sbrc x.1 x.2) rfl rfl (r, b) hwf
  case sbrs r b => exact .short 24 .rb (fun x => .sbrs x.1 x.2) rfl rfl (r, b) hwf
  case sbic p b => exact .short 25 .iob (fun x => .sbic x.1 x.2) rfl rfl (p, b) hwf
  case sbis p b => exact .short 26 .iob (fun x => .sbis x.1 x.2) rfl rfl (p, b) hwf
  case brbs b k => exact .short 27 .br (fun x => .brbs x.1 x.2) rfl rfl (b, k) hwf
  case brbc b k => exact .short 28 .br (fun x => .brbc x.1 x.2) rfl rfl (b, k) hwf
  case mov d r => exact .short 29 .rr (fun x => .mov x.1 x.2) rfl rfl (d, r) hwf
  case ldi d k => exact .short 30 .ri (fun x => .ldi x.1 x.2) rfl rfl (d, k) hwf
  case inIo d p => exact .short 31 .io (fun x => .inIo x.1 x.2) rfl rfl (d, p) hwf
  case outIo p r => exact .short 32 .io (fun x => .outIo x.2 x.1) rfl rfl (r, p) hwf
  case sbi p b => exact .short 33 .iob (fun x => .sbi x.1 x.2) rfl rfl (p, b) hwf
  case cbi p b => exact .short 34 .iob (fun x => .cbi x.1 x.2) rfl rfl (p, b) hwf
  case lsr d => exact .short 35 .d .lsr rfl rfl d hwf
  case ror d => exact .short 36 .d .ror rfl rfl d hwf
  case asr d => exact .short 37 .d .asr rfl rfl d hwf
  case swap d => exact .short 38 .d .swap rfl rfl d hwf
  case bset b => exact .short 39 .sreg .bset rfl rfl b hwf
  case bclr b => exact .short 40 .sreg .bclr rfl rfl b hwf
  case bst r b => exact .short 41 .rb (fun x => .bst x.1 x.2) rfl rfl (r, b) hwf
  case bld d b => exact .short 42 .rb (fun x => .bld x.1 x.2) rfl rfl (d, b) hwf
  case nop => exact .short 43 .fixed (fun _ => .nop) rfl rfl () hwf
  case sleep => exact .short 44 .fixed (fun _ => .sleep) rfl rfl () hwf
  case wdr => exact .short 45 .fixed (fun _ => .wdr) rfl rfl () hwf
  case lpm => exact .short 46 .fixed (fun _ => .lpm) rfl rfl () hwf
  case adiw d k => exact .short 47 .iw (fun x => .adiw x.1 x.2) rfl rfl (d, k) hwf
  case sbiw d k => exact .short 48 .iw (fun x => .sbiw x.1 x.2) rfl rfl (d, k) hwf
  case ijmp => exact .short 49 .fixed (fun _ => .ijmp) rfl rfl () hwf
  case icall => exact .short 50 .fixed (fun _ => .icall) rfl rfl () hwf
  case lds d k => exact .long 51 (fun d k => .lds d k) rfl rfl (by decide) d k
  case ldX d => exact .short 52 .d .ldX rfl rfl d hwf
  case ldXInc d => exact .short 53 .d .ldXInc rfl rfl d hwf
  case ldXDec d => exact .short 54 .d .ldXDec rfl rfl d hwf
  case ldYInc d => exact .short 55 .d .ldYInc rfl rfl d hwf
  case ldYDec d => exact .short 56 .d .ldYDec rfl rfl d hwf
  case lddY d q => exact .short 57 .ldd (fun x => .lddY x.1 x.2) rfl rfl (d, q) hwf
  case ldZInc d => exact .short 58 .d .ldZInc rfl rfl d hwf
  case ldZDec d => exact .short 59 .d .ldZDec rfl rfl d hwf
  case lddZ d q => exact .short 60 .ldd (fun x => .lddZ x.1 x.2) rfl rfl (d, q) hwf
  case sts k r => exact .long 61 (fun d k => .sts k d) rfl rfl (by decide) r k
  case stX r => exact .short 62 .d .stX rfl rfl r hwf
  case stXInc r => exact .short 63 .d .stXInc rfl rfl r hwf
  case stXDec r => exact .short 64 .d .stXDec rfl rfl r hwf
  case stYInc r => exact .short 65 .d .stYInc rfl rfl r hwf
  case stYDec r => exact .short 66 .d .stYDec rfl rfl r hwf
  case stdY q r => exact .short 67 .ldd (fun x => .stdY x.2 x.1) rfl rfl (r, q) hwf
  case stZInc r => exact .short 68 .d .stZInc rfl rfl r hwf
  case stZDec r => exact .short 69 .d .stZDec rfl rfl r hwf
  case stdZ q r => exact .short 70 .ldd (fun x => .stdZ x.2 x.1) rfl rfl (r, q) hwf
  case push r => exact .short 71 .d .push rfl rfl r hwf
  case pop d => exact .short 72 .d .pop rfl rfl d hwf
  case jmp k => exact .jmp 73 .jmp rfl rfl (by decide) k
  case call k => exact .jmp 74 .call rfl rfl (by decide) k
  case elpm => exact .short 75 .fixed (fun _ => .elpm) rfl rfl () hwf
  case mul d r => exact .short 76 .rr (fun x => .mul x.1 x.2) rfl rfl (d, r) hwf
  case muls d r => exact .short 77 .muls (fun x => .muls x.1 x.2) rfl rfl (d, r) hwf
  case mulsu d r => exact .short 78 .mul3 (fun x => .mulsu x.1 x.2) rfl rfl (d, r) hwf
  case fmul d r => exact .short 79 .mul3 (fun x => .fmul x.1 x.2) rfl rfl (d, r) hwf
  case fmuls d r => exact .short 80 .mul3 (fun x => .fmuls x.1 x.2) rfl rfl (d, r) hwf
  case fmulsu d r => exact .short 81 .mul3 (fun x => .fmulsu x.1 x.2) rfl rfl (d, r) hwf
  case movw d r => exact .short 82 .movw (fun x => .movw x.1 x.2) rfl rfl (d, r) hwf
  case lpmZ d => exact .short 83 .d .lpmZ rfl rfl d hwf
  case lpmZInc d => exact .short 84 .d .lpmZInc rfl rfl d hwf
  case spm => exact .short 85 .fixed (fun _ => .spm) rfl rfl () hwf
  case brk => exact .short 86 .fixed (fun _ => .brk) rfl rfl () hwf
  case elpmZ d => exact .short 87 .d .elpmZ rfl rfl d hwf
  case elpmZInc d => exact .short 88 .d .elpmZInc rfl rfl d hwf
  case eijmp => exact .short 89 .fixed (fun _ => .eijmp) rfl rfl () hwf
  case eicall => exact .short 90 .fixed (fun _ => .eicall) rfl rfl () hwf
  all_goals cases hcanonical

/-! Each synonym row spells the word of its expansion (R105). -/

theorem Instr.canonical_canonical (i : Instr) : i.canonical.canonical = i.canonical := by
  cases i <;> rfl

theorem Instr.wellFormed_canonical {i : Instr} (h : i.wellFormed = true) : i.canonical.wellFormed = true := by
  cases i <;> exact h

theorem encBR_flag (base : Nat) (b : Fin 8) (k : BitVec 7) : encBR (base + b.val) 0 k = encBR base b k := by
  simp only [encBR, Fin.val_zero]
  congr 1
  omega

theorem encLDD_zero (base : Nat) (d : Reg) : encLDD base d 0 = encD base d := by
  simp [encLDD, encD]

theorem encRI_ones (base : Nat) (d : Reg) : encRI base d 0xFF#8 = encDUpper (base + 0xF0F) d := by
  simp only [encRI, encDUpper, BitVec.toNat_ofNat]
  congr 1
  omega

theorem encode_canonical (i : Instr) : encode i = encode i.canonical := by
  cases i
  case breq k => exact congrArg ([·]) (encBR_flag 0xF000 1 k)
  case brne k => exact congrArg ([·]) (encBR_flag 0xF400 1 k)
  case brmi k => exact congrArg ([·]) (encBR_flag 0xF000 2 k)
  case brpl k => exact congrArg ([·]) (encBR_flag 0xF400 2 k)
  case brvs k => exact congrArg ([·]) (encBR_flag 0xF000 3 k)
  case brvc k => exact congrArg ([·]) (encBR_flag 0xF400 3 k)
  case brlt k => exact congrArg ([·]) (encBR_flag 0xF000 4 k)
  case brge k => exact congrArg ([·]) (encBR_flag 0xF400 4 k)
  case brhs k => exact congrArg ([·]) (encBR_flag 0xF000 5 k)
  case brhc k => exact congrArg ([·]) (encBR_flag 0xF400 5 k)
  case brts k => exact congrArg ([·]) (encBR_flag 0xF000 6 k)
  case brtc k => exact congrArg ([·]) (encBR_flag 0xF400 6 k)
  case brie k => exact congrArg ([·]) (encBR_flag 0xF000 7 k)
  case brid k => exact congrArg ([·]) (encBR_flag 0xF400 7 k)
  case ldY d => exact congrArg ([·]) (encLDD_zero 0x8008 d).symm
  case ldZ d => exact congrArg ([·]) (encLDD_zero 0x8000 d).symm
  case stY r => exact congrArg ([·]) (encLDD_zero 0x8208 r).symm
  case stZ r => exact congrArg ([·]) (encLDD_zero 0x8200 r).symm
  case ser d => exact congrArg ([·]) (encRI_ones 0xE000 d).symm
  all_goals rfl

/-- The bytes of a word in a program image read as that word (R70). -/
theorem decodeBytes_words {w w1 : Word} {i : Instr} (hi : decodeWords w w1 = some i)
    (hw1 : isLongWord w = true ∨ w1 = 0#16) (rest : List Byte) :
    decodeBytes (((if isLongWord w = true then [w, w1] else [w]).flatMap fun w => [loByte w, hiByte w]) ++ rest) =
      .ok (i, rest) := by
  cases hlong : isLongWord w with
  | true => simp [decodeBytes, Machine.wordOfBytes_lo_hi, hlong, hi]
  | false =>
    have hw1 : w1 = 0#16 := hw1.resolve_left (by simp [hlong])
    subst hw1
    simp only [Bool.false_eq_true, if_false, List.flatMap_cons, List.flatMap_nil, List.append_nil, List.cons_append, List.nil_append,
      decodeBytes, Machine.wordOfBytes_lo_hi, hlong]
    rw [show decodeWords w 0 = some i from hi]

/-- Settles O2: the expansion is what some words decode to; by O3 these are its encoding, and a synonym row's too. -/
theorem decodeOfEncode : Obligations.DecodeOfEncode := by
  unfold Obligations.DecodeOfEncode
  intro i hwf rest
  obtain ⟨w, w1, hi, hw1⟩ := decodable_of_canonical (Instr.wellFormed_canonical hwf) i.canonical_canonical
  obtain ⟨-, -, hencode, -⟩ := spelledBy_of_decodeWords hi
  rw [encodeBytes, encode_canonical, hencode]
  exact decodeBytes_words hi hw1 rest

/-! ### The reserved words (R107) -/

/-- The bits of `v` under the mask `m` are enough to see that a word has the pattern `p`. -/
def patternSeen (m v : Nat) (p : Nat × Nat) : Bool := p.1 &&& m == p.1 && v &&& p.1 == p.2

/-- The decision tree over the bits `k - 1` to 0: given the bits of `v` under the mask `m`, every word has one of the patterns `ps`. Patterns
that the known bits rule out are dropped on the way down. -/
def covers : Nat → Nat → Nat → List (Nat × Nat) → Bool
  | 0, m, v, ps => ps.any (patternSeen m v)
  | k + 1, m, v, ps =>
    ps.any (patternSeen m v) ||
      [0, 2 ^ k].all fun b => covers k (m ||| 2 ^ k) (v ||| b) (ps.filter fun p => !patternsClash p (m ||| 2 ^ k, v ||| b))

theorem exists_hit_of_seen {n m v : Nat} {ps : List (Nat × Nat)} (hn : n &&& m = v) (h : ps.any (patternSeen m v) = true) :
    ∃ p ∈ ps, n &&& p.1 = p.2 := by
  obtain ⟨p, hmem, hp⟩ := List.any_eq_true.mp h
  simp only [patternSeen, Bool.and_eq_true, beq_iff_eq] at hp
  obtain ⟨hmask, hv⟩ := hp
  refine ⟨p, hmem, ?_⟩
  rw [← hmask, Nat.land_comm p.1 m, ← Nat.land_assoc, hn, hv]

theorem exists_hit_of_covers {n : Nat} (k : Nat) {m v : Nat} {ps : List (Nat × Nat)} (hn : n &&& m = v)
    (h : covers k m v ps = true) : ∃ p ∈ ps, n &&& p.1 = p.2 := by
  induction k generalizing m v ps with
  | zero => exact exists_hit_of_seen hn h
  | succ k ih =>
    rw [covers, Bool.or_eq_true] at h
    rcases h with h | h
    · exact exists_hit_of_seen hn h
    · have hbit : n &&& 2 ^ k ∈ [0, 2 ^ k] := by
        rw [Nat.and_two_pow]
        cases n.testBit k <;> simp
      have hstep := List.all_eq_true.mp h _ hbit
      obtain ⟨p, hmem, hp⟩ := ih (by rw [Nat.and_or_distrib_left, hn]) hstep
      exact ⟨p, (List.mem_filter.mp hmem).1, hp⟩

/-- The seven classes as patterns: "not 0x0000" and "not IJMP, EIJMP, ICALL, EICALL" are one bit set of those that are 0 there. -/
def reservedPatterns : List (Nat × Nat) :=
  (List.range 8).map (fun j => (0xFF00 + 2 ^ j, 2 ^ j)) ++
  [3, 8, 11].map (fun n => (0xFE0F, 0x9000 + n)) ++
  [3, 4, 5, 6, 7, 8, 11].map (fun n => (0xFE0F, 0x9200 + n)) ++
  [4, 11].map (fun n => (0xFE0F, 0x9400 + n)) ++
  [2, 3, 4, 5, 6, 7, 11, 15].map (fun n => (0xFFFF, 0x9508 + 16 * n)) ++
  [(0xFE2F, 0x9429), (0xFE4F, 0x9449), (0xFE8F, 0x9489)] ++
  [(0xF808, 0xF808)]

/-- No word has both a row's pattern and a reserved one. -/
theorem rows_clash_reserved :
    ∀ p ∈ decodeTable.map DecodeRow.pattern, ∀ q ∈ reservedPatterns, patternsClash p q = true := by
  decide +kernel

/-- Every word has a row's pattern or a reserved one. -/
theorem covers_rows_and_reserved : covers 16 0 0 (decodeTable.map DecodeRow.pattern ++ reservedPatterns) = true := by
  decide +kernel

theorem exists_pattern (w : Word) :
    (∃ row ∈ decodeTable, row.hits w = true) ∨ ∃ p ∈ reservedPatterns, w.toNat &&& p.1 = p.2 := by
  obtain ⟨p, hmem, hp⟩ := exists_hit_of_covers 16 (Nat.and_zero w.toNat) covers_rows_and_reserved
  rcases List.mem_append.mp hmem with hmap | hreserved
  · obtain ⟨row, hrow, rfl⟩ := List.mem_map.mp hmap
    exact .inl ⟨row, hrow, (row.hits_iff w).mpr hp⟩
  · exact .inr ⟨p, hreserved, hp⟩

/-! The classes of R107 one by one, each with its patterns. -/

theorem land_high_and_bit (n j : Nat) (hj : j < 8) : n &&& (0xFF00 + 2 ^ j) = n / 256 % 256 * 256 + (n &&& 2 ^ j) := by
  have hlt : 2 ^ j < 2 ^ 8 := Nat.pow_lt_pow_right (by decide) hj
  rw [← land_0xFF00]
  exact land_add n 255 hlt

theorem exists_bit : ∀ n < 256, n ≠ 0 → ∃ j < 8, n &&& 2 ^ j = 2 ^ j := by decide +kernel

/-- The first class: the high byte 0 and some bit of the low byte set. -/
theorem nonzeroLowByte_iff {n : Nat} (hn : n < 65536) :
    (n / 256 = 0 ∧ n ≠ 0) ↔ ∃ p ∈ (List.range 8).map (fun j => (0xFF00 + 2 ^ j, 2 ^ j)), n &&& p.1 = p.2 := by
  simp only [List.mem_map, exists_exists_and_eq_and, List.mem_range]
  constructor
  · rintro ⟨hhigh, hne⟩
    obtain ⟨j, hj, hbit⟩ := exists_bit n (by omega) hne
    refine ⟨j, hj, ?_⟩
    rw [land_high_and_bit n j hj, hbit, hhigh]
    simp
  · rintro ⟨j, hj, hbit⟩
    rw [land_high_and_bit n j hj] at hbit
    have hle : n &&& 2 ^ j ≤ 2 ^ j := Nat.and_le_right
    have hlt : 2 ^ j < 2 ^ 8 := Nat.pow_lt_pow_right (by decide) hj
    refine ⟨by omega, ?_⟩
    rintro rfl
    simp only [Nat.zero_div, Nat.zero_mod, Nat.zero_mul, Nat.zero_and, Nat.zero_add] at hbit
    exact (Nat.two_pow_pos j).ne hbit

/-- Classes that fix bits 15 to 9 and choose the low four bits. -/
theorem lowDigit_iff {n h : Nat} {l : List Nat} (hn : n < 65536) (hl : ∀ k ∈ l, k < 16) :
    (n / 512 = h ∧ n % 16 ∈ l) ↔ ∃ p ∈ l.map (fun k => (0xFE0F, h * 512 + k)), n &&& p.1 = p.2 := by
  simp only [List.mem_map, exists_exists_and_eq_and, land_0xFE0F]
  constructor
  · rintro ⟨rfl, hmem⟩
    exact ⟨_, hmem, by omega⟩
  · rintro ⟨k, hmem, hk⟩
    have hlt := hl k hmem
    refine ⟨by omega, ?_⟩
    rwa [show n % 16 = k by omega]

/-- Words with high byte 0x95 and low digit 8. -/
theorem middleDigit_iff {n : Nat} {l : List Nat} (hn : n < 65536) (hl : ∀ k ∈ l, k < 16) :
    (n / 256 = 0x95 ∧ n % 16 = 8 ∧ n / 16 % 16 ∈ l) ↔ ∃ p ∈ l.map (fun k => (0xFFFF, 0x9508 + 16 * k)), n &&& p.1 = p.2 := by
  simp only [List.mem_map, exists_exists_and_eq_and, land_0xFFFF, Nat.mod_eq_of_lt hn]
  constructor
  · rintro ⟨hhigh, hlow, hmem⟩
    exact ⟨_, hmem, by omega⟩
  · rintro ⟨k, hmem, rfl⟩
    have hlt := hl k hmem
    refine ⟨by omega, by omega, ?_⟩
    rwa [show (0x9508 + 16 * k) / 16 % 16 = k by omega]

theorem land_0xF808 (n : Nat) : n &&& 0xF808 = n / 2048 % 32 * 2048 + n / 8 % 2 * 8 :=
  (land_add n 31 (k := 11) (m₂ := 0x08) (by decide)).trans (congrArg₂ (· + ·) (land_0xF800 n) (land_0x0008 n))

/-- A bit between the fields that 0xFE0F keeps. -/
theorem land_0xFE0F_and_bit (n j : Nat) (h4 : 4 ≤ j) (h8 : j < 9) :
    n &&& (0xFE00 + (1 * 2 ^ j + 0xF)) = n / 512 % 128 * 512 + (n / 2 ^ j % 2 * 2 ^ j + n % 16) := by
  have hlow : 0xF < 2 ^ j := lt_of_lt_of_le (by decide) (Nat.pow_le_pow_right (by decide) h4)
  have hmid : 1 * 2 ^ j + 0xF < 2 ^ 9 := by
    have : 2 ^ j ≤ 2 ^ 8 := Nat.pow_le_pow_right (by decide) (by omega)
    omega
  have hbit : n &&& 1 * 2 ^ j = n / 2 ^ j % 2 * 2 ^ j := land_field n 1 j
  rw [← land_0xFE00, ← land_0x000F, ← hbit]
  exact (land_add n 127 hmid).trans (congrArg (_ + ·) (land_add n 1 hlow))

theorem middle_bits_iff :
    ∀ m < 32, (m ≠ 0 ∧ m ≠ 1 ∧ m ≠ 16 ∧ m ≠ 17) ↔ (m / 2 % 2 = 1 ∨ m / 4 % 2 = 1 ∨ m / 8 % 2 = 1) := by decide

/-- The sixth class: the words beside IJMP, EIJMP, ICALL and EICALL. -/
theorem besideIndirect_iff {n : Nat} (hn : n < 65536) :
    (n / 512 = 0x4A ∧ n % 16 = 9 ∧ n ∉ [0x9409, 0x9419, 0x9509, 0x9519]) ↔
      ∃ p ∈ [(0xFE2F, 0x9429), (0xFE4F, 0x9449), (0xFE8F, 0x9489)], n &&& p.1 = p.2 := by
  have h5 : n &&& 0xFE2F = _ := land_0xFE0F_and_bit n 5 (by decide) (by decide)
  have h6 : n &&& 0xFE4F = _ := land_0xFE0F_and_bit n 6 (by decide) (by decide)
  have h7 : n &&& 0xFE8F = _ := land_0xFE0F_and_bit n 7 (by decide) (by decide)
  have hbits := middle_bits_iff (n / 16 % 32) (Nat.mod_lt _ (by decide))
  have hb5 : n / 16 % 32 / 2 % 2 = n / 32 % 2 := by omega
  have hb6 : n / 16 % 32 / 4 % 2 = n / 64 % 2 := by omega
  have hb7 : n / 16 % 32 / 8 % 2 = n / 128 % 2 := by omega
  rw [hb5, hb6, hb7] at hbits
  have hpage : n / 512 % 128 = n / 512 := Nat.mod_eq_of_lt (by omega)
  have hwords : (n / 512 = 0x4A ∧ n % 16 = 9 ∧ n ∉ [0x9409, 0x9419, 0x9509, 0x9519]) ↔
      n / 512 = 0x4A ∧ n % 16 = 9 ∧ (n / 16 % 32 ≠ 0 ∧ n / 16 % 32 ≠ 1 ∧ n / 16 % 32 ≠ 16 ∧ n / 16 % 32 ≠ 17) := by
    simp only [List.mem_cons, List.not_mem_nil, or_false, not_or]
    omega
  rw [hwords, hbits]
  simp only [List.mem_cons, List.not_mem_nil, or_false, exists_eq_or_imp, exists_eq_left, h5, h6, h7, hpage]
  clear h5 h6 h7 hbits hb5 hb6 hb7 hwords
  omega

theorem reservedWord_iff (w : Word) : Machine.ReservedWord w ↔ ∃ p ∈ reservedPatterns, w.toNat &&& p.1 = p.2 := by
  have hw := w.isLt
  have hzero : w ≠ 0x0000#16 ↔ w.toNat ≠ 0 := by simp [← BitVec.toNat_inj]
  have hindirect : w ∉ [0x9409#16, 0x9419#16, 0x9509#16, 0x9519#16] ↔ w.toNat ∉ [0x9409, 0x9419, 0x9509, 0x9519] := by
    simp [← BitVec.toNat_inj]
  have hlast : (w.toNat / 2048 = 0x1F ∧ w.toNat / 8 % 2 = 1) ↔ ∃ p ∈ [(0xF808, 0xF808)], w.toNat &&& p.1 = p.2 := by
    simp only [List.mem_singleton, exists_eq_left, land_0xF808]
    omega
  unfold Machine.ReservedWord
  simp only [reservedPatterns, List.mem_append, or_and_right, exists_or, or_assoc]
  rw [hzero, hindirect]
  exact or_congr (nonzeroLowByte_iff hw) <| or_congr (lowDigit_iff hw (by decide)) <| or_congr (lowDigit_iff hw (by decide)) <|
    or_congr (lowDigit_iff hw (by decide)) <| or_congr (middleDigit_iff hw (by decide)) <|
    or_congr (besideIndirect_iff hw) hlast

/-- Settles O4: rows and reserved patterns have no word in common and leave none out. -/
theorem reservedWordsAreTheSevenClasses : Obligations.ReservedWordsAreTheSevenClasses := by
  unfold Obligations.ReservedWordsAreTheSevenClasses
  intro w w1
  rw [decodeWords_eq_none_iff, reservedWord_iff]
  constructor
  · intro hnone
    refine (exists_pattern w).resolve_left ?_
    rintro ⟨row, hmem, hhits⟩
    exact Bool.false_ne_true ((hnone row hmem).symm.trans hhits)
  · rintro ⟨q, hq, hw⟩ row hmem
    rw [Bool.eq_false_iff, ne_eq, row.hits_iff]
    exact fun hrow => not_hit_of_clash (rows_clash_reserved _ (List.mem_map_of_mem hmem) q hq) hrow hw

/-- Settles O1: each word is looked up in the opcode map. -/
theorem knownWordsDecode : Obligations.KnownWordsDecode := by
  unfold Obligations.KnownWordsDecode
  decide

namespace Machine

theorem State.dispAddr_zero (s : State) (p : Ptr) : s.dispAddr p 0 = s.ptr p := by
  simp [State.dispAddr]

/-- Settles O5: most synonym rows call the same operation; CBR complements its constant, LD and ST displace by 0. -/
theorem aliasHasMeaningOfExpansion : Obligations.AliasHasMeaningOfExpansion := by
  unfold Obligations.AliasHasMeaningOfExpansion
  intro i s
  cases i
  case cbr d k => exact congrArg (fun m => Host.Outcome.next (s.putLogic d (s.reg d &&& m))) (BitVec.allOnes_sub_eq_not k)
  case ldZ d => exact congrArg (s.loadFrom d · 1) (s.dispAddr_zero .z).symm
  case ldY d => exact congrArg (s.loadFrom d · 1) (s.dispAddr_zero .y).symm
  case stZ r => exact congrArg (s.storeTo · r 1) (s.dispAddr_zero .z).symm
  case stY r => exact congrArg (s.storeTo · r 1) (s.dispAddr_zero .y).symm
  all_goals rfl

end Machine

end Sys2Proof
end

section
/-! PROOFS. What each instruction may write, and the invariant of the machine (whole-machine statements). -/

namespace Sys2Proof.Machine

/-! ### Footprints: what an instruction may write -/

/-- What an instruction may write: data addresses, registers, flags, program memory, and RAMPZ beside its I/O location. -/
structure Footprint where
  addrs : List Word
  regs : List Reg
  flags : List Flag
  prog : Bool
  rampz : Bool

/-- `s` became `t` by writes inside the footprint, each of which keeps the invariant. For one footprint this is transitive, so that an
instruction is treated one state update at a time. -/
structure Within (f : Footprint) (s t : State) : Prop where
  regs : ∀ r : Reg, r ∉ f.regs → BitVec.ofNat 16 r.val ∉ f.addrs → t.reg r = s.reg r
  flags : 0x5F#16 ∉ f.addrs → SameFlags f.flags s t
  sram : ∀ a : Word, a ∉ f.addrs → t.sramByte? a = s.sramByte? a
  prog : f.prog = false → t.prog = s.prog
  cfg : t.cfg = s.cfg
  shadow : 0x5F#16 ∉ f.addrs → flagI ∉ f.flags → t.irqShadow = s.irqShadow
  inv : (f.rampz = true → s.cfg.hasRampz = true) → s.Inv → t.Inv

theorem Within.trans {f : Footprint} {s t u : State} (h : Within f s t) (h' : Within f t u) : Within f s u where
  regs r hr ha := (h'.regs r hr ha).trans (h.regs r hr ha)
  flags ha b hb := (h'.flags ha b hb).trans (h.flags ha b hb)
  sram a ha := (h'.sram a ha).trans (h.sram a ha)
  prog hp := (h'.prog hp).trans (h.prog hp)
  cfg := h'.cfg.trans h.cfg
  shadow ha hI := (h'.shadow ha hI).trans (h.shadow ha hI)
  inv hr hs := h'.inv (h.cfg ▸ hr) (h.inv hr hs)

/-- The invariant speaks of eight fields. -/
theorem State.Inv.of_fields {s t : State} (h : s.Inv) (cfg : t.cfg = s.cfg) (pc : t.pc.toNat < 2 ^ s.cfg.pcBits)
    (sram : t.sram = s.sram) (prog : t.prog = s.prog) (hwStack : t.hwStack = s.hwStack) (rampz : t.rampz = s.rampz)
    (eind : t.eind = s.eind) (runState : t.runState = s.runState) : t.Inv := by
  constructor <;> simp only [cfg, sram, prog, hwStack, rampz, eind, runState]
  case cfg => exact h.cfg
  case pc => exact pc
  case sramWf => exact h.sramWf
  case sramRange => exact h.sramRange
  case progWf => exact h.progWf
  case progRange => exact h.progRange
  case hwDepth => exact h.hwDepth
  case hwAbsent => exact h.hwAbsent
  case hwAddrs => exact h.hwAddrs
  case rampz => exact h.rampz
  case eind => exact h.eind
  case sleeping => exact h.sleeping
  case stopped => exact h.stopped

/-- A step that touches neither memory nor an address of it. -/
theorem Within.of_registers {f : Footprint} {s t : State} (regs : ∀ r : Reg, r ∉ f.regs → t.reg r = s.reg r)
    (flags : SameFlags f.flags s t) (sram : t.sram = s.sram) (prog : t.prog = s.prog) (cfg : t.cfg = s.cfg)
    (shadow : flagI ∉ f.flags → t.irqShadow = s.irqShadow)
    (inv : (f.rampz = true → s.cfg.hasRampz = true) → s.Inv → t.Inv) : Within f s t where
  regs r hr _ := regs r hr
  flags _ := flags
  sram a _ := by simp only [State.sramByte?, sram]
  prog _ := prog
  cfg := cfg
  shadow _ := shadow
  inv := inv

section
variable {f : Footprint} {s t : State}

/-! ### The state updates -/

theorem Within.setReg {d : Reg} (hd : d ∈ f.regs) (v : Byte) : Within f s (s.setReg d v) :=
  .of_registers (fun r hr => State.reg_setReg_other s d r v fun e => hr (e ▸ hd)) (fun _ _ => rfl) rfl rfl rfl (fun _ => rfl)
    fun _ h => h.of_fields rfl h.pc rfl rfl rfl rfl rfl rfl

theorem Within.setPair {d : Reg} (hlo : d ∈ f.regs) (hhi : d + 1 ∈ f.regs) (v : Word) : Within f s (s.setPair d v) :=
  (Within.setReg hlo _).trans (.setReg hhi _)

theorem Within.setPc (n : Nat) : Within f s (s.setPc n) :=
  .of_registers (fun _ _ => rfl) (fun _ _ => rfl) rfl rfl rfl (fun _ => rfl)
    fun _ h => h.of_fields rfl (Config.wrapPc_lt s.cfg n) rfl rfl rfl rfl rfl rfl

theorem Within.advance (n : Nat) : Within f s (s.advance n) := .setPc _

theorem Within.setSreg {v : Byte} (hv : ∀ b : Flag, b ∉ f.flags → v.getLsbD b.val = s.flag b) : Within f s (s.setSreg v) :=
  .of_registers (fun _ _ => rfl) hv rfl rfl rfl (fun _ => rfl) fun _ h => h.of_fields rfl h.pc rfl rfl rfl rfl rfl rfl

/-- SREG and the interrupt shadow at once, by an instruction that may write I. -/
theorem Within.setSregShadow {v : Byte} (hI : flagI ∈ f.flags) (hv : ∀ b : Flag, b ∉ f.flags → v.getLsbD b.val = s.flag b)
    (x : Bool) : Within f s { s with sreg := v, irqShadow := x } :=
  .of_registers (fun _ _ => rfl) hv rfl rfl rfl (fun h => absurd hI h) fun _ h => h.of_fields rfl h.pc rfl rfl rfl rfl rfl rfl

theorem Within.setSp (v : Word) : Within f s { s with sp := v } :=
  .of_registers (fun _ _ => rfl) (fun _ _ => rfl) rfl rfl rfl (fun _ => rfl) fun _ h => h.of_fields rfl h.pc rfl rfl rfl rfl rfl rfl

theorem Within.setEnv (answers : List Byte) (events : List EnvEvent) (draws : Nat) :
    Within f s { s with ioAnswers := answers, events := events, draws := draws } :=
  .of_registers (fun _ _ => rfl) (fun _ _ => rfl) rfl rfl rfl (fun _ => rfl) fun _ h => h.of_fields rfl h.pc rfl rfl rfl rfl rfl rfl

theorem Within.emit (e : EnvEvent) : Within f s (s.emit e) := .setEnv _ _ _

theorem Within.setRampz (hf : f.rampz = true) (v : Byte) : Within f s { s with rampz := v } :=
  .of_registers (fun _ _ => rfl) (fun _ _ => rfl) rfl rfl rfl (fun _ => rfl) fun hr h =>
    { h with rampz := fun hn => absurd (hr hf) (by rw [hn]; exact Bool.false_ne_true) }

theorem Within.setProgWord {a : Nat} (hf : f.prog = true) (ha : a < s.cfg.flashWords) (w : Word) :
    Within f s (s.setProgWord a w) where
  regs _ _ _ := rfl
  flags _ _ _ := rfl
  sram _ _ := rfl
  prog hp := absurd hf (by rw [hp]; exact Bool.false_ne_true)
  cfg := rfl
  shadow _ _ := rfl
  inv _ h := { h with progWf := State.setProgWord_wf.1 h.progWf, progRange := State.setProgWord_wf.2 ha h.progRange }

/-! ### The data space -/

theorem Within.ioRead (p : BitVec 6) : Within f s (s.ioRead p).2 := by
  obtain ⟨answers, events, draws, h⟩ := State.ioRead_env s p
  rw [h]
  exact .setEnv _ _ _

theorem Within.memRead {a : Word} {v : Byte} (h : s.memRead a = .next (v, t)) : Within f s t := by
  obtain ⟨answers, events, draws, rfl⟩ := State.memRead_env h
  exact .setEnv _ _ _

theorem dataOfIo_inj {p q : BitVec 6} (h : dataOfIo p = dataOfIo q) : p = q := by
  unfold dataOfIo at h
  bv_omega

theorem Within.ioWrite {p : BitVec 6} (hp : dataOfIo p ∈ f.addrs) (v : Byte) : Within f s (s.ioWrite p v) := by
  rcases State.ioWrite_cases s p v with ⟨rfl, h⟩ | ⟨-, -, h⟩ | ⟨-, -, h⟩ | ⟨-, heind, h⟩ | ⟨-, hrampz, h⟩ | ⟨-, h⟩ <;> rw [h]
  case inl =>
    have hsreg : 0x5F#16 ∈ f.addrs := hp
    exact ⟨fun _ _ _ => rfl, fun hn => absurd hsreg hn, fun _ _ => rfl, fun _ => rfl, rfl, fun hn => absurd hsreg hn,
      fun _ hs => hs.of_fields rfl hs.pc rfl rfl rfl rfl rfl rfl⟩
  case inr.inl | inr.inr.inl => exact .setSp _
  case inr.inr.inr.inl =>
    exact .of_registers (fun _ _ => rfl) (fun _ _ => rfl) rfl rfl rfl (fun _ => rfl) fun _ hs =>
      { hs with eind := fun hn => absurd heind (by rw [hn]; exact Bool.false_ne_true) }
  case inr.inr.inr.inr.inl =>
    exact .of_registers (fun _ _ => rfl) (fun _ _ => rfl) rfl rfl rfl (fun _ => rfl) fun _ hs =>
      { hs with rampz := fun hn => absurd hrampz (by rw [hn]; exact Bool.false_ne_true) }
  case inr.inr.inr.inr.inr => exact .emit _

/-- Of the three regions that can be written, each is reached at its own addresses. -/
theorem ofNat_regOfData {c : Config} {a : Word} (h : dataRegion c a = .register) : BitVec.ofNat 16 (regOfData a).val = a := by
  rw [(regOfData_eq_iff h _).mp rfl, BitVec.ofNat_toNat, BitVec.setWidth_eq]

theorem dataOfIo_ioOfData {c : Config} {a : Word} (h : dataRegion c a = .io) : dataOfIo (ioOfData a) = a := by
  unfold dataRegion at h
  split_ifs at h
  unfold dataOfIo ioOfData
  bv_omega

theorem Within.memWrite {a : Word} {v : Byte} (ha : a ∈ f.addrs) (h : s.memWrite a v = .next t) : Within f s t := by
  obtain ⟨hwf, hrange, hprog⟩ := State.memWrite_wf h
  rcases State.memWrite_cases h with ⟨hr, rfl⟩ | ⟨hr, rfl⟩ | ⟨hr, rfl⟩
  · refine ⟨fun r _ hn => State.reg_setReg_other _ _ _ _ ?_, fun _ _ _ => rfl, fun _ _ => rfl, fun _ => rfl, rfl, fun _ _ => rfl,
      fun _ hs => hs.of_fields rfl hs.pc rfl rfl rfl rfl rfl rfl⟩
    rintro rfl
    exact hn (by rwa [ofNat_regOfData hr])
  · exact .ioWrite (by rwa [dataOfIo_ioOfData hr]) v
  · refine ⟨fun _ _ _ => rfl, fun _ _ _ => rfl, fun b hb => ?_, fun _ => rfl, rfl, fun _ _ => rfl,
      fun _ hs => { hs with sramWf := hwf hs.sramWf, sramRange := hrange hs.sramRange }⟩
    rw [State.sramByte_write, if_neg (by rintro rfl; exact hb ha)]

/-! ### The stack -/

theorem Within.push8 {v : Byte} (hsp : s.sp ∈ f.addrs) (h : s.push8 v = .next t) : Within f s t := by
  obtain ⟨u, hu, rfl⟩ := State.push8_next h
  exact (Within.memWrite hsp hu).trans (.setSp _)

theorem Within.pop8 {v : Byte} (h : s.pop8 = .next (v, t)) : Within f s t := by
  obtain ⟨-, answers, events, draws, rfl⟩ := State.pop8_next h
  exact (Within.setSp (s.sp + 1#16)).trans (.setEnv answers events draws)

theorem State.push8_sp {v : Byte} (h : s.push8 v = .next t) : t.sp = s.sp - 1#16 := by
  obtain ⟨u, -, rfl⟩ := State.push8_next h
  rfl

theorem State.mem_pushAddrs {j : Nat} (hs : s.cfg.hasSp = true) (hj : j < s.cfg.retBytes) :
    s.sp - BitVec.ofNat 16 j ∈ s.pushAddrs := by
  rw [State.pushAddrs, if_pos hs]
  exact List.mem_map_of_mem (List.mem_range.mpr hj)

theorem Within.pushPc {a : PcWord} (haddrs : s.pushAddrs ⊆ f.addrs) (ha : s.Inv → a.toNat < 2 ^ s.cfg.pcBits)
    (h : s.pushPc a = .next t) : Within f s t := by
  rcases State.pushPc_next h with ⟨hs, hlen, rfl⟩ | ⟨hs, u, v, hu, hv, ht⟩
  · refine .of_registers (fun _ _ => rfl) (fun _ _ => rfl) rfl rfl rfl (fun _ => rfl) fun _ hi => { hi with
      hwDepth := hlen
      hwAbsent := fun hn => absurd hn (by rw [hs]; exact Bool.false_ne_true)
      hwAddrs := ?_ }
    exact List.forall_mem_cons.mpr ⟨ha hi, hi.hwAddrs⟩
  · have hb := retBytes_cases s.cfg
    have mem (j : Nat) (hj : j < s.cfg.retBytes) := haddrs (State.mem_pushAddrs hs hj)
    have husp := State.push8_sp hu
    have hvsp := State.push8_sp hv
    have h0 : s.sp = s.sp - BitVec.ofNat 16 0 := by bv_omega
    have h1 : u.sp = s.sp - BitVec.ofNat 16 1 := husp
    have h2 : v.sp = s.sp - BitVec.ofNat 16 2 := by rw [hvsp, husp]; bv_omega
    have hsv : Within f s v :=
      (Within.push8 (by rw [h0]; exact mem 0 (by omega)) hu).trans (.push8 (by rw [h1]; exact mem 1 (by omega)) hv)
    split_ifs at ht with hb3
    · exact hsv.trans (.push8 (by rw [h2]; exact mem 2 (by omega)) ht)
    · rwa [ht]

/-- A popped return address is one the program counter can hold: it was wrapped, or the invariant says so of the hardware stack. -/
theorem Within.popPc {a : PcWord} (h : s.popPc = .next (a, t)) : Within f s t ∧ (s.Inv → a.toNat < 2 ^ s.cfg.pcBits) := by
  rcases State.popPc_frame h with ⟨hs, hstack, ht⟩ | ⟨-, ⟨n, rfl⟩, answers, events, draws, ht⟩
  case inl =>
    generalize t.hwStack = rest at hstack ht
    subst ht
    refine ⟨.of_registers (fun _ _ => rfl) (fun _ _ => rfl) rfl rfl rfl (fun _ => rfl) fun _ hi => { hi with
      hwDepth := ?depth
      hwAbsent := fun hn => absurd hn (by rw [hs]; exact Bool.false_ne_true)
      hwAddrs := fun b hb => hi.hwAddrs b (hstack ▸ List.mem_cons_of_mem a hb) }, fun hi => hi.hwAddrs a (hstack ▸ List.mem_cons_self)⟩
    case depth =>
      have := hi.hwDepth
      rw [hstack, List.length_cons] at this
      exact Nat.le_of_succ_le this
  case inr =>
    generalize t.sp = sp at ht
    subst ht
    exact ⟨(Within.setSp sp).trans (.setEnv answers events draws), fun _ => Config.wrapPc_lt s.cfg n⟩

theorem Within.setPcWord {a : PcWord} (ha : s.Inv → a.toNat < 2 ^ s.cfg.pcBits) : Within f s { s with pc := a } :=
  .of_registers (fun _ _ => rfl) (fun _ _ => rfl) rfl rfl rfl (fun _ => rfl)
    fun _ h => h.of_fields rfl (ha h) rfl rfl rfl rfl rfl rfl

/-! ### The ways an instruction ends -/

theorem Within.setRegAdvance {d : Reg} (hd : d ∈ f.regs) (v : Byte) (n : Nat) : Within f s ((s.setReg d v).advance n) :=
  (Within.setReg hd v).trans (.advance n)

theorem Within.putResult {d : Reg} {r sreg : Byte} (hd : d ∈ f.regs) (hv : ∀ b : Flag, b ∉ f.flags → sreg.getLsbD b.val = s.flag b) :
    Within f s (s.putResult d r sreg) :=
  ((Within.setReg hd r).trans (.setSreg hv)).trans (.advance 1)

/-- The flags that the operations of R120 and R121 leave. -/
theorem sregHSVNZC_kept {sreg : Byte} {o : AluOut} {b : Flag} (hb : b ∉ [flagH, flagS, flagV, flagN, flagZ, flagC]) :
    (sregHSVNZC sreg o).getLsbD b.val = sreg.getLsbD b.val := by
  simp only [List.mem_cons, List.not_mem_nil, or_false, not_or] at hb
  simp only [sregHSVNZC_bit, hb, if_false]

theorem sregSVNZC_kept {sreg : Byte} {v n z c : Bool} {b : Flag} (hb : b ∉ [flagS, flagV, flagN, flagZ, flagC]) :
    (sregSVNZC sreg v n z c).getLsbD b.val = sreg.getLsbD b.val := by
  simp only [List.mem_cons, List.not_mem_nil, or_false, not_or] at hb
  simp only [sregSVNZC_bit, hb, if_false]

theorem sregSVNZ_kept {sreg : Byte} {v n z : Bool} {b : Flag} (hb : b ∉ [flagS, flagV, flagN, flagZ]) :
    (sregSVNZ sreg v n z).getLsbD b.val = sreg.getLsbD b.val := by
  simp only [List.mem_cons, List.not_mem_nil, or_false, not_or] at hb
  simp only [sregSVNZ_bit, hb, if_false]

theorem sregZC_kept {sreg : Byte} {z c : Bool} {b : Flag} (hb : b ∉ [flagZ, flagC]) :
    (sregZC sreg z c).getLsbD b.val = sreg.getLsbD b.val := by
  simp only [List.mem_cons, List.not_mem_nil, or_false, not_or] at hb
  simp only [sregZC_bit, hb, if_false]

theorem putBit_kept {sreg : Byte} {b c : Flag} {x : Bool} (hc : c ∉ [b]) :
    (putBit sreg b x).getLsbD c.val = sreg.getLsbD c.val := by
  rw [putBit_getLsbD, if_neg (by simpa using hc)]

theorem Within.putAlu {d : Reg} {o : AluOut} (hd : d ∈ f.regs) (hf : f.flags = [flagH, flagS, flagV, flagN, flagZ, flagC]) :
    Within f s (s.putAlu d o) :=
  .putResult hd fun _ hb => sregHSVNZC_kept (hf ▸ hb)

theorem Within.putLogic {d : Reg} {r : Byte} (hd : d ∈ f.regs) (hf : f.flags = [flagS, flagV, flagN, flagZ]) :
    Within f s (s.putLogic d r) :=
  .putResult hd fun _ hb => sregSVNZ_kept (hf ▸ hb)

theorem Within.putFlags {o : AluOut} (hf : f.flags = [flagH, flagS, flagV, flagN, flagZ, flagC]) : Within f s (s.putFlags o) :=
  (Within.setSreg fun _ hb => sregHSVNZC_kept (hf ▸ hb)).trans (.advance 1)

theorem Within.putPair {d : Reg} {r : Word} {sreg : Byte} (hlo : d ∈ f.regs) (hhi : d + 1 ∈ f.regs)
    (hv : ∀ b : Flag, b ∉ f.flags → sreg.getLsbD b.val = s.flag b) : Within f s (s.putPair d r sreg) :=
  ((Within.setPair hlo hhi r).trans (.setSreg hv)).trans (.advance 1)

theorem Within.putProduct {p r : Word} (hlo : 0 ∈ f.regs) (hhi : 1 ∈ f.regs) (hf : f.flags = [flagZ, flagC]) :
    Within f s (s.putProduct p r) :=
  .putPair hlo hhi fun _ hb => sregZC_kept (hf ▸ hb)

/-- BSET of I starts the shadow and writes I; BSET of another flag leaves both. -/
theorem Within.setFlag {b : Flag} (hf : f.flags = [b]) : Within f s (s.setFlag b) := by
  refine Within.trans (t := { s with sreg := putBit s.sreg b true, irqShadow := s.irqShadow || decide (b = flagI) })
    (.of_registers (fun _ _ => rfl) (fun _ hc => putBit_kept (hf ▸ hc)) rfl rfl rfl (fun hI => ?_)
      fun _ h => h.of_fields rfl h.pc rfl rfl rfl rfl rfl rfl) (.advance 1)
  have hb : ¬ b = flagI := by
    rintro rfl
    exact hI (by rw [hf]; exact List.mem_singleton_self _)
  simp [hb]

theorem Within.clearFlag {b : Flag} (hf : f.flags = [b]) : Within f s (s.clearFlag b) :=
  (Within.setSreg fun _ hc => putBit_kept (hf ▸ hc)).trans (.advance 1)

theorem Within.branchIf {c : Bool} {k : BitVec 7} : Within f s (s.branchIf c k) := by
  unfold State.branchIf
  split_ifs
  · exact .setPc _
  · exact .advance 1

theorem Within.skipIf {c : Bool} (h : s.skipIf c = .next t) : Within f s t := by
  rcases State.skipIf_next h with ⟨-, rfl⟩ | ⟨-, n, -, rfl⟩
  · exact .advance 1
  · exact .advance (1 + n)

theorem Within.callTo {n target : Nat} (haddrs : f.addrs = s.pushAddrs) (h : s.callTo n target = .next t) : Within f s t := by
  obtain ⟨u, hu, h⟩ := bindRes_next_iff.mp h
  cases h
  exact (Within.pushPc (haddrs ▸ List.Subset.refl _) (fun _ => Config.wrapPc_lt s.cfg _) hu).trans (.setPc target)

theorem Within.returnFromCall (h : s.returnFromCall = .next t) : Within f s t := by
  obtain ⟨⟨a, u⟩, hu, h⟩ := bindRes_next_iff.mp h
  cases h
  obtain ⟨hpop, ha⟩ := Within.popPc (f := f) hu
  refine ⟨hpop.regs, hpop.flags, hpop.sram, hpop.prog, hpop.cfg, hpop.shadow, fun hr hs => ?_⟩
  exact (hpop.inv hr hs).of_fields rfl (hpop.cfg ▸ ha hs) rfl rfl rfl rfl rfl rfl

theorem Within.returnFromIrq (hf : f.flags = [flagI]) (h : s.returnFromIrq = .next t) : Within f s t := by
  obtain ⟨a, u, hu, rfl⟩ := State.returnFromIrq_next h
  have hI : flagI ∈ f.flags := by rw [hf]; exact List.mem_singleton_self _
  have hret : Within f s { u with pc := a } := .returnFromCall (by rw [State.returnFromCall, hu]; rfl)
  exact hret.trans (.setSregShadow hI (fun _ hb => putBit_kept (hf ▸ hb)) true)

theorem Within.sleep (hm : s.cfg.sleepModel = .wait) : Within f s { s.advance 1 with runState := .sleeping } :=
  (Within.advance 1).trans <| .of_registers (fun _ _ => rfl) (fun _ _ => rfl) rfl rfl rfl (fun _ => rfl)
    fun _ h => { h with sleeping := fun _ => hm, stopped := fun hn => RunState.noConfusion hn }

theorem Within.stop (hm : s.cfg.breakModel = .stop) : Within f s { s with runState := .stopped } :=
  .of_registers (fun _ _ => rfl) (fun _ _ => rfl) rfl rfl rfl (fun _ => rfl)
    fun _ h => { h with sleeping := fun hn => RunState.noConfusion hn, stopped := fun _ => hm }

theorem Within.loadFrom {d : Reg} {a : Word} {n : Nat} (hd : d ∈ f.regs) (h : s.loadFrom d a n = .next t) : Within f s t := by
  obtain ⟨v, u, hu, rfl⟩ := State.loadFrom_next h
  exact (Within.memRead hu).trans (.setRegAdvance hd v n)

theorem Within.storeTo {r : Reg} {a : Word} {n : Nat} (ha : a ∈ f.addrs) (h : s.storeTo a r n = .next t) : Within f s t := by
  obtain ⟨u, hu, rfl⟩ := State.storeTo_next h
  exact (Within.memWrite ha hu).trans (.advance n)

/-- What the post-increment and pre-decrement loads share: the read, the data register, the pointer. -/
theorem Within.loadStep {d : Reg} {p : Ptr} {a v : Word} (hf : f.regs = [d, p.lo, p.lo + 1])
    (h : guardPtr p d a (bindRes (s.memRead a) fun x => .next (((x.2.setReg d x.1).setPtr p v).advance 1)) = .next t) :
    Within f s t := by
  obtain ⟨-, -, h⟩ := guardPtr_next h
  obtain ⟨⟨x, u⟩, hu, h⟩ := bindRes_next_iff.mp h
  cases h
  obtain ⟨hd, hlo, hhi⟩ : d ∈ f.regs ∧ p.lo ∈ f.regs ∧ p.lo + 1 ∈ f.regs := by simp [hf]
  exact (((Within.memRead hu).trans (.setReg hd x)).trans (.setPair hlo hhi v)).trans (.advance 1)

/-- What the post-increment and pre-decrement stores share: the write and the pointer. -/
theorem Within.storeStep {r : Reg} {p : Ptr} {a v : Word} (ha : a ∈ f.addrs) (hf : f.regs = [p.lo, p.lo + 1])
    (h : guardPtr p r a (bindRes (s.memWrite a (s.reg r)) fun u => .next ((u.setPtr p v).advance 1)) = .next t) : Within f s t := by
  obtain ⟨-, -, h⟩ := guardPtr_next h
  obtain ⟨u, hu, h⟩ := bindRes_next_iff.mp h
  cases h
  obtain ⟨hlo, hhi⟩ : p.lo ∈ f.regs ∧ p.lo + 1 ∈ f.regs := by simp [hf]
  exact ((Within.memWrite ha hu).trans (.setPair hlo hhi v)).trans (.advance 1)

theorem Within.loadProg {d : Reg} {b : Nat} (hd : d ∈ f.regs) (h : s.loadProg d b = .next t) : Within f s t := by
  obtain ⟨v, -, h⟩ := bindRes_next_iff.mp h
  cases h
  exact .setRegAdvance hd v 1

theorem Within.loadProgInc {d : Reg} (hf : f.regs = [d, 30, 31]) (h : s.loadProgInc d = .next t) : Within f s t := by
  unfold State.loadProgInc at h
  split_ifs at h
  obtain ⟨v, -, h⟩ := bindRes_next_iff.mp h
  cases h
  obtain ⟨hd, hlo, hhi⟩ : d ∈ f.regs ∧ 30 ∈ f.regs ∧ (30 : Reg) + 1 ∈ f.regs := by simp [hf]
  exact ((Within.setReg hd v).trans (.setPair hlo hhi _)).trans (.advance 1)

theorem Within.loadProgExtInc {d : Reg} (hf : f.regs = [d, 30, 31]) (hr : f.rampz = true) (h : s.loadProgExtInc d = .next t) :
    Within f s t := by
  unfold State.loadProgExtInc at h
  split_ifs at h
  obtain ⟨v, -, h⟩ := bindRes_next_iff.mp h
  cases h
  obtain ⟨hd, hlo, hhi⟩ : d ∈ f.regs ∧ 30 ∈ f.regs ∧ (30 : Reg) + 1 ∈ f.regs := by simp [hf]
  exact (((Within.setReg hd v).trans (.setRampz hr _)).trans (.setPair hlo hhi _)).trans (.advance 1)

theorem Within.updateIo {p : BitVec 6} (hp : dataOfIo p ∈ f.addrs) (v : Byte) :
    Within f s (((s.ioRead p).2.ioWrite p v).advance 1) :=
  ((Within.ioRead p).trans (.ioWrite hp v)).trans (.advance 1)

end

/-! ### Every instruction stays inside its footprint -/

/-- The footprint that the tables of R26, R33, R61 and R82 give an instruction. -/
def footprint (s : State) (i : Instr) : Footprint where
  addrs := storeAddrs s i
  regs := destRegs i
  flags := flagsWritten i
  prog := decide (i = .spm)
  rampz := match i with
    | .elpmZInc _ => true
    | _ => false

/-- Everything an instruction does is inside its footprint, and keeps the invariant where RAMPZ exists for ELPM Rd,Z+. -/
theorem exec_within {i : Instr} {s t : State} (h : exec i s = .next t) : Within (footprint s i) s t := by
  cases i
  case add | adc | sub | subi | sbc | sbci | lsl | rol | neg => cases h; exact .putAlu (.head _) rfl
  case and | andi | or | ori | eor | sbr | cbr | tst | clr => cases h; exact .putLogic (.head _) rfl
  case inc | dec => cases h; exact .putResult (.head _) fun _ => sregSVNZ_kept
  case com | lsr | ror | asr => cases h; exact .putResult (.head _) fun _ => sregSVNZC_kept
  case cp | cpc | cpi => cases h; exact .putFlags rfl
  case ser | ldi | mov | swap | bld => cases h; exact .setRegAdvance (.head _) _ 1
  case movw => cases h; exact (Within.setPair (.head _) (.tail _ (.head _)) _).trans (.advance 1)
  case adiw | sbiw => cases h; exact .putPair (.head _) (.tail _ (.head _)) fun _ => sregSVNZC_kept
  case mul | muls | mulsu | fmul | fmuls | fmulsu => cases h; exact .putProduct (.head _) (.tail _ (.head _)) rfl
  case bset | sec | sez | sen | sev | ses | seh | setT | sei => cases h; exact .setFlag rfl
  case bclr | clc | clz | cln | clv | cls | clh | clt | cli => cases h; exact .clearFlag rfl
  case bst => cases h; exact (Within.setSreg fun _ => putBit_kept).trans (.advance 1)
  case brbs | brbc | brcs | brlo | breq | brmi | brvs | brlt | brhs | brts | brie | brcc | brsh | brne | brpl | brvc | brge |
      brhc | brtc | brid =>
    cases h; exact .branchIf
  case rjmp | ijmp | jmp | eijmp => cases h; exact .setPc _
  case rcall | icall | call | eicall => exact .callTo rfl h
  case ret => exact .returnFromCall h
  case reti => exact .returnFromIrq rfl h
  case cpse | sbrc | sbrs => exact .skipIf h
  case sbic | sbis => exact (Within.ioRead _).trans (.skipIf h)
  case nop => cases h; exact .advance 1
  case wdr => cases h; exact (Within.emit _).trans (.advance 1)
  case sleep =>
    change execSleep s = .next t at h
    unfold execSleep at h
    split at h <;> cases h
    · exact .sleep ‹_›
    · exact .advance 1
  case brk =>
    change execBrk s = .next t at h
    unfold execBrk at h
    split at h <;> cases h
    · exact .stop ‹_›
    · exact .advance 1
  case ldX | ldY | ldZ | lddY | lddZ | lds => exact .loadFrom (.head _) h
  case stX | stY | stZ | stdY | stdZ | sts => exact .storeTo (.head _) h
  case ldXInc | ldXDec | ldYInc | ldYDec | ldZInc | ldZDec => exact .loadStep rfl h
  case stXInc | stXDec | stYInc | stYDec | stZInc | stZDec => exact .storeStep (.head _) rfl h
  case inIo => cases h; exact (Within.ioRead _).trans (.setRegAdvance (.head _) _ 1)
  case outIo => cases h; exact (Within.ioWrite (.head _) _).trans (.advance 1)
  case sbi | cbi => cases h; exact .updateIo (.head _) _
  case push =>
    obtain ⟨u, hu, h⟩ := bindRes_next_iff.mp h
    cases h
    exact (Within.push8 (.head _) hu).trans (.advance 1)
  case pop =>
    obtain ⟨⟨v, u⟩, hu, h⟩ := bindRes_next_iff.mp h
    cases h
    exact (Within.pop8 hu).trans (.setRegAdvance (.head _) v 1)
  case lpm | lpmZ | elpm | elpmZ => exact .loadProg (.head _) h
  case lpmZInc => exact .loadProgInc rfl h
  case elpmZInc => exact .loadProgExtInc rfl rfl h
  case spm =>
    change execSpm s = .next t at h
    unfold execSpm at h
    split at h
    · cases h
    · dsimp only at h
      split_ifs at h with ha
      cases h
      exact (Within.setProgWord (by simp [footprint]) ha _).trans (.advance 1)

/-- Settles O55: by the footprint of every instruction. -/
theorem flagsWrittenOnlyByTheListed : Obligations.FlagsWrittenOnlyByTheListed := by
  unfold Obligations.FlagsWrittenOnlyByTheListed
  intro i s t h hsreg
  exact (exec_within h).flags hsreg

/-- Settles O56: by the footprint of every instruction. -/
theorem registersWrittenOnlyByTheListed : Obligations.RegistersWrittenOnlyByTheListed := by
  unfold Obligations.RegistersWrittenOnlyByTheListed
  intro i s t h r hr ha
  exact (exec_within h).regs r hr ha

/-- Settles O57: by the footprint of every instruction, where program memory is SPM's alone. -/
theorem memoryWrittenOnlyAtStoreAddresses : Obligations.MemoryWrittenOnlyAtStoreAddresses := by
  unfold Obligations.MemoryWrittenOnlyAtStoreAddresses
  intro i s t h
  refine ⟨(exec_within h).sram, fun hspm b => ?prog, (exec_within h).cfg⟩
  have hprog : t.prog = s.prog := (exec_within h).prog (decide_eq_false hspm)
  simp only [State.progByte, hprog]

/-! ### The invariant of the machine -/

/-- An instruction that a core has uses RAMPZ only where RAMPZ exists: ELPM Rd,Z+ is on two of the cores with ELPM. -/
theorem hasRampz_of_implementedOn {s : State} {i : Instr} (h : i.implementedOn s.cfg.core = true)
    (hr : (footprint s i).rampz = true) : s.cfg.hasRampz = true := by
  have elpmX : ∀ core : CoreKind, core.hasElpmX = true → core.hasElpm = true := by rintro (_ | _) <;> decide
  cases i
  case elpmZInc => exact elpmX _ h
  all_goals exact absurd hr Bool.false_ne_true

theorem State.Inv.popBoundary {s : State} (h : s.Inv) : s.popBoundary.Inv := h.of_fields rfl h.pc rfl rfl rfl rfl rfl rfl

theorem State.Inv.beginInstr {s : State} (h : s.Inv) : s.beginInstr.Inv := h.of_fields rfl h.pc rfl rfl rfl rfl rfl rfl

section
variable (s : State)

@[simp] theorem State.takeReset_pc : s.takeReset.pc = 0#22 := by dsimp only [State.takeReset, State.emit]

@[simp] theorem State.takeReset_sreg : s.takeReset.sreg = 0#8 := by dsimp only [State.takeReset, State.emit]

@[simp] theorem State.takeReset_rampz : s.takeReset.rampz = 0#8 := by dsimp only [State.takeReset, State.emit]

@[simp] theorem State.takeReset_eind : s.takeReset.eind = 0#8 := by dsimp only [State.takeReset, State.emit]

@[simp] theorem State.takeReset_sram : s.takeReset.sram = [] := by dsimp only [State.takeReset, State.emit]

@[simp] theorem State.takeReset_hwStack : s.takeReset.hwStack = [] := by dsimp only [State.takeReset, State.emit]

@[simp] theorem State.takeReset_irqShadow : s.takeReset.irqShadow = false := by dsimp only [State.takeReset, State.emit]

@[simp] theorem State.takeReset_runState : s.takeReset.runState = .running := by dsimp only [State.takeReset, State.emit]

end

/-- A reset empties SRAM and the hardware stack, and clears the program counter, RAMPZ and EIND. -/
theorem State.Inv.takeReset {s : State} (h : s.Inv) : s.takeReset.Inv := by
  constructor <;> simp only [State.takeReset_cfg, State.takeReset_pc, State.takeReset_prog, State.takeReset_rampz,
    State.takeReset_eind, State.takeReset_sram, State.takeReset_hwStack, State.takeReset_runState]
  case cfg => exact h.cfg
  case pc => exact Nat.two_pow_pos _
  case sramWf => rfl
  case progWf => exact h.progWf
  case progRange => exact h.progRange
  case hwDepth => exact Nat.zero_le _
  all_goals simp

/-- An interrupt entry pushes the program counter, which the invariant bounds, and wakes the core. -/
theorem State.Inv.enterIrq {s t : State} {n : Nat} (h : s.Inv) (ht : s.enterIrq n = .next t) : t.Inv := by
  obtain ⟨u, hu, rfl⟩ := State.enterIrq_next ht
  have hpush : Within ⟨s.pushAddrs, [], [], false, false⟩ s u := .pushPc (List.Subset.refl _) (fun _ => h.pc) hu
  have hui : u.Inv := hpush.inv (fun hn => absurd hn Bool.false_ne_true) h
  exact { hui with
    pc := hpush.cfg ▸ Config.wrapPc_lt s.cfg _
    sleeping := fun hn => RunState.noConfusion hn
    stopped := fun hn => RunState.noConfusion hn }

/-- Settles O58: a reset and an interrupt entry by their own lemmas, an instruction by its footprint. -/
theorem stepKeepsInvariant : Obligations.StepKeepsInvariant := by
  unfold Obligations.StepKeepsInvariant
  intro s t hs h
  rcases step_next h with ⟨-, rfl⟩ | ⟨n, -, ht⟩ | ⟨-, rfl⟩ | ⟨-, i, hfetch, ht⟩
  case inl => exact hs.popBoundary.takeReset
  case inr.inl => exact hs.popBoundary.enterIrq ht
  case inr.inr.inl => exact hs.popBoundary
  case inr.inr.inr =>
    obtain ⟨w, w1, -, -, himpl⟩ := State.fetch_next hfetch
    exact (exec_within ht).inv (hasRampz_of_implementedOn (s := s.beginInstr) himpl) hs.beginInstr

/-- Settles O59: the memories and the hardware stack are empty, and the device's parameters are legal. -/
theorem resetMeetsInvariant : Obligations.ResetMeetsInvariant := by
  unfold Obligations.ResetMeetsInvariant
  obtain ⟨hsram, hprog⟩ := State.reset_wf
  exact {
    cfg := by decide
    pc := by decide
    sramWf := hsram
    sramRange := fun _ hc => absurd hc List.not_mem_nil
    progWf := hprog
    progRange := fun _ hc => absurd hc List.not_mem_nil
    hwDepth := Nat.zero_le _
    hwAbsent := fun _ => rfl
    hwAddrs := fun _ ha => absurd ha List.not_mem_nil
    rampz := fun _ => rfl
    eind := fun _ => rfl
    sleeping := fun hn => RunState.noConfusion hn
    stopped := fun hn => RunState.noConfusion hn }

/-- Settles O60: the fields of the state after reset, read off its definition. -/
theorem resetValues : Obligations.ResetValues := by
  unfold Obligations.ResetValues
  exact ⟨rfl, rfl, rfl, rfl, rfl, rfl, rfl, rfl⟩
end Sys2Proof.Machine
end

section
/-! PROOFS. S = N ^ V and the interrupt shadow (whole-machine statements). -/

namespace Sys2Proof.Machine

/-! ### S = N ^ V (R126) -/

/-- The flag S is the exclusive or of N and V. -/
def State.SignIsNXorV (t : State) : Prop := t.flag flagS = (t.flag flagN ^^ t.flag flagV)

theorem State.signIsNXorV_putFlags (s : State) {o : AluOut} (ho : o.s = (o.n ^^ o.v)) : (s.putFlags o).SignIsNXorV := by
  obtain ⟨-, hs, hv, hn, -, -⟩ := s.putFlags_flags o
  rw [State.SignIsNXorV, hs, hn, hv, ho]

theorem State.signIsNXorV_putAlu (s : State) (d : Reg) {o : AluOut} (ho : o.s = (o.n ^^ o.v)) : (s.putAlu d o).SignIsNXorV :=
  State.signIsNXorV_putFlags s ho

theorem State.signIsNXorV_of_sregSVNZC {t : State} {sreg : Byte} {v n z c : Bool} (h : t.sreg = sregSVNZC sreg v n z c) :
    t.SignIsNXorV := by
  simp only [State.SignIsNXorV, State.flag, h, sregSVNZC_bit]
  rfl

theorem State.signIsNXorV_of_sregSVNZ {t : State} {sreg : Byte} {v n z : Bool} (h : t.sreg = sregSVNZ sreg v n z) :
    t.SignIsNXorV := by
  simp only [State.SignIsNXorV, State.flag, h, sregSVNZ_bit]
  rfl

/-- Settles O9: the shared flag computations give S so; every other instruction lacks N or S in its list. -/
theorem signFollowsNAndV : Obligations.SignFollowsNAndV := by
  unfold Obligations.SignFollowsNAndV
  intro i s t h hN hS
  change t.SignIsNXorV
  cases i
  case add | adc | sub | subi | sbc | sbci | lsl | rol | neg => cases h; exact State.signIsNXorV_putAlu s _ rfl
  case cp | cpc | cpi => cases h; exact State.signIsNXorV_putFlags s rfl
  case and | andi | or | ori | eor | sbr | cbr | tst | clr | inc | dec => cases h; exact State.signIsNXorV_of_sregSVNZ rfl
  case com => cases h; exact State.signIsNXorV_of_sregSVNZC (sreg := s.sreg) (v := false) (c := true) rfl
  case lsr | ror | asr | adiw | sbiw => cases h; exact State.signIsNXorV_of_sregSVNZC rfl
  case bset | bclr =>
    have hNb := List.mem_singleton.mp hN
    have hSb := List.mem_singleton.mp hS
    exact absurd (hNb.trans hSb.symm) (by decide)
  all_goals simp [flagsWritten, flagC, flagZ, flagN, flagV, flagS, flagH, flagT, flagI] at hN hS

/-! ### The interrupt shadow (R43) -/

/-- Neither I nor the shadow changed. -/
def QuietShadow (s t : State) : Prop := t.irqShadow = s.irqShadow ∧ t.flag flagI = s.flag flagI

/-- The shadow is as before, but set where I went from 0 to 1. -/
def ShadowFollowsI (s t : State) : Prop := t.irqShadow = (s.irqShadow || (!s.flag flagI && t.flag flagI))

section
variable {s t u : State}

theorem QuietShadow.follows (h : QuietShadow s t) : ShadowFollowsI s t := by
  rw [ShadowFollowsI, h.1, h.2, Bool.not_and_self, Bool.or_false]

theorem QuietShadow.trans (h : QuietShadow s t) (h' : QuietShadow t u) : QuietShadow s u :=
  ⟨h'.1.trans h.1, h'.2.trans h.2⟩

theorem QuietShadow.trans_follows (h : QuietShadow s t) (h' : ShadowFollowsI t u) : ShadowFollowsI s u := by
  rw [ShadowFollowsI, h', h.1, h.2]

theorem ShadowFollowsI.trans_quiet (h : ShadowFollowsI s t) (h' : QuietShadow t u) : ShadowFollowsI s u := by
  rw [ShadowFollowsI, h'.1, h'.2, h]

theorem Within.quietShadow {f : Footprint} (h : Within f s t) (ha : 0x5F#16 ∉ f.addrs) (hI : flagI ∉ f.flags) : QuietShadow s t :=
  ⟨h.shadow ha hI, h.flags ha flagI hI⟩

theorem State.ioWrite_shadow (s : State) (p : BitVec 6) (v : Byte) : ShadowFollowsI s (s.ioWrite p v) := by
  rcases State.ioWrite_cases s p v with ⟨-, h⟩ | ⟨-, -, h⟩ | ⟨-, -, h⟩ | ⟨-, -, h⟩ | ⟨-, -, h⟩ | ⟨-, h⟩ <;> rw [h]
  case inl => exact rfl
  all_goals exact QuietShadow.follows ⟨rfl, rfl⟩

theorem State.memWrite_shadow {a : Word} {v : Byte} (h : s.memWrite a v = .next t) : ShadowFollowsI s t := by
  rcases State.memWrite_cases h with ⟨-, rfl⟩ | ⟨-, rfl⟩ | ⟨-, rfl⟩
  case inr.inl => exact s.ioWrite_shadow _ v
  all_goals exact QuietShadow.follows ⟨rfl, rfl⟩

theorem State.push8_shadow {v : Byte} (h : s.push8 v = .next t) : ShadowFollowsI s t := by
  obtain ⟨u, hu, rfl⟩ := State.push8_next h
  exact (State.memWrite_shadow hu).trans_quiet ⟨rfl, rfl⟩

theorem State.push8_quiet {v : Byte} (hsp : s.sp ≠ 0x5F#16) (h : s.push8 v = .next t) : QuietShadow s t := by
  have hw : Within ⟨[s.sp], [], [], false, false⟩ s t := .push8 (.head _) h
  exact hw.quietShadow (fun hn => hsp (List.mem_singleton.mp hn).symm) List.not_mem_nil

/-- The bytes of a return address go to different addresses, so that at most one of them lands on SREG. -/
theorem State.pushPc_shadow {a : PcWord} (h : s.pushPc a = .next t) : ShadowFollowsI s t := by
  rcases State.pushPc_next h with ⟨-, -, rfl⟩ | ⟨-, u, v, hu, hv, ht⟩
  · exact QuietShadow.follows ⟨rfl, rfl⟩
  have husp := State.push8_sp hu
  have hvsp := State.push8_sp hv
  have third (hne : v.sp ≠ 0x5F#16) : QuietShadow v t := by
    split_ifs at ht
    · exact State.push8_quiet hne ht
    · exact ht ▸ ⟨rfl, rfl⟩
  have third_follows : ShadowFollowsI v t := by
    split_ifs at ht
    · exact State.push8_shadow ht
    · exact ht ▸ QuietShadow.follows ⟨rfl, rfl⟩
  by_cases h0 : s.sp = 0x5F#16
  · have h1 : u.sp ≠ 0x5F#16 := by rw [husp, h0]; decide
    have h2 : v.sp ≠ 0x5F#16 := by rw [hvsp, husp, h0]; decide
    exact ((State.push8_shadow hu).trans_quiet (State.push8_quiet h1 hv)).trans_quiet (third h2)
  · refine (State.push8_quiet h0 hu).trans_follows ?_
    by_cases h1 : u.sp = 0x5F#16
    · have h2 : v.sp ≠ 0x5F#16 := by rw [hvsp, h1]; decide
      exact (State.push8_shadow hv).trans_quiet (third h2)
    · exact (State.push8_quiet h1 hv).trans_follows third_follows

theorem State.callTo_shadow {n target : Nat} (h : s.callTo n target = .next t) : ShadowFollowsI s t := by
  obtain ⟨u, hu, h⟩ := bindRes_next_iff.mp h
  cases h
  exact (State.pushPc_shadow hu).trans_quiet ⟨rfl, rfl⟩

theorem State.storeTo_shadow {a : Word} {r : Reg} {n : Nat} (h : s.storeTo a r n = .next t) : ShadowFollowsI s t := by
  obtain ⟨u, hu, rfl⟩ := State.storeTo_next h
  exact (State.memWrite_shadow hu).trans_quiet ⟨rfl, rfl⟩

/-- What the post-increment and pre-decrement stores share. -/
theorem State.storeStep_shadow {r : Reg} {p : Ptr} {a v : Word}
    (h : guardPtr p r a (bindRes (s.memWrite a (s.reg r)) fun u => .next ((u.setPtr p v).advance 1)) = .next t) :
    ShadowFollowsI s t := by
  obtain ⟨-, -, h⟩ := guardPtr_next h
  obtain ⟨u, hu, h⟩ := bindRes_next_iff.mp h
  cases h
  exact (State.memWrite_shadow hu).trans_quiet ⟨rfl, rfl⟩

theorem State.updateIo_shadow (p : BitVec 6) (v : Byte) : ShadowFollowsI s (((s.ioRead p).2.ioWrite p v).advance 1) := by
  have hread : Within ⟨[], [], [], false, false⟩ s (s.ioRead p).2 := .ioRead p
  exact (hread.quietShadow List.not_mem_nil List.not_mem_nil).trans_follows ((s.ioRead p).2.ioWrite_shadow p v)

end

/-- BSET 7 and RETI set the shadow; every other instruction that a word decodes to leaves it to follow I. -/
theorem exec_shadow {i : Instr} {s t : State} (h : exec i s = .next t) (hc : i.canonical = i) :
    ((i = .bset flagI ∨ i = .reti) ∧ t.irqShadow = true) ∨ (i ≠ .bset flagI ∧ i ≠ .reti ∧ ShadowFollowsI s t) := by
  by_cases hbset : i = .bset flagI
  · subst hbset
    cases h
    exact .inl ⟨.inl rfl, Bool.or_true _⟩
  by_cases hreti : i = .reti
  · subst hreti
    obtain ⟨a, u, -, rfl⟩ := State.returnFromIrq_next h
    exact .inl ⟨.inr rfl, rfl⟩
  refine .inr ⟨hbset, hreti, ?_⟩
  by_cases hq : 0x5F#16 ∉ storeAddrs s i ∧ flagI ∉ flagsWritten i
  · exact ((exec_within h).quietShadow hq.1 hq.2).follows
  cases i
  case rcall | icall | call | eicall => exact State.callTo_shadow h
  case stX | stY | stZ | stdY | stdZ | sts => exact State.storeTo_shadow h
  case stXInc | stXDec | stYInc | stYDec | stZInc | stZDec => exact State.storeStep_shadow h
  case outIo => cases h; exact s.ioWrite_shadow _ _
  case sbi | cbi => cases h; exact State.updateIo_shadow _ _
  case push =>
    obtain ⟨u, hu, h⟩ := bindRes_next_iff.mp h
    cases h
    exact (State.push8_shadow hu).trans_quiet ⟨rfl, rfl⟩
  case bset =>
    refine absurd ⟨List.not_mem_nil, fun hb => hbset ?_⟩ hq
    rw [List.mem_singleton.mp hb]
  case bclr b =>
    cases h
    by_cases hb : b = flagI
    · subst hb
      have hI : (s.clearFlag flagI).flag flagI = false := (putBit_getLsbD s.sreg flagI flagI false).trans (if_pos rfl)
      rw [ShadowFollowsI, hI, Bool.and_false, Bool.or_false]
      rfl
    · refine absurd ⟨List.not_mem_nil, fun hn => hb ?_⟩ hq
      rw [List.mem_singleton.mp hn]
  case sei | cli => cases hc
  case reti => exact absurd rfl hreti
  all_goals simp [storeAddrs, flagsWritten, flagC, flagZ, flagN, flagV, flagS, flagH, flagT, flagI] at hq

/-- Settles O54: what a fetch answers is no synonym row, and the shadow is clear when the instruction starts. -/
theorem shadowAfterInstruction : Obligations.ShadowAfterInstruction := by
  unfold Obligations.ShadowAfterInstruction
  intro s t i hrun hfetch hstep
  have hexec : exec i s.beginInstr = .next t := by
    rcases step_next hstep with ⟨ha, -⟩ | ⟨n, ha, -⟩ | ⟨ha, -⟩ | ⟨-, j, hj, ht⟩
    case inr.inr.inr =>
      rw [hfetch] at hj
      cases hj
      exact ht
    all_goals exact absurd (hrun.symm.trans ha) (by simp)
  obtain ⟨w, w1, -, hdecode, -⟩ := State.fetch_next hfetch
  obtain ⟨-, hcanonical, -⟩ := spelledBy_of_decodeWords hdecode
  rcases exec_shadow hexec hcanonical with ⟨hi, ht⟩ | ⟨hbset, hreti, ht⟩
  · simp only [ht, true_iff]
    exact hi.elim .inl fun hr => .inr (.inl hr)
  · rw [ShadowFollowsI, State.beginInstr_irqShadow, Bool.false_or] at ht
    simp only [ht, hbset, hreti, false_or, Bool.and_eq_true, Bool.not_eq_true']
    rfl
end Sys2Proof.Machine
end

section
/-! PROOFS. 8-bit arithmetic and the multiplies (family `40_arithmetic_logic`, continued). -/

namespace Sys2Proof.Machine

/-! ### Sums (R120) -/

/-- What every instruction that adds does with its sum. -/
theorem State.putAlu_addResult (s : State) (d : Reg) (a b : Byte) (c : Bool) :
    AddResult d a b c s (s.putAlu d (addFlags a b c)) := by
  obtain ⟨hreg, -, hgo, hframe⟩ := s.putAlu_frame d (addFlags a b c)
  obtain ⟨hh, hs, hv, hn, hz, hc⟩ := s.putAlu_flags d (addFlags a b c)
  obtain ⟨fr, fh, -, fc, -, -, -, fv, fn, fz, fs⟩ := addFlagsFormulas a b c
  rw [AddResult, hreg, hh, hs, hv, hn, hz, hc]
  refine ⟨fr, fh, fc, fv, ?_, fz, fs, hgo, hframe⟩
  rw [fn, Byte.getElem_seven, decide_eq_true_iff]

/-- A byte added to itself is the byte shifted left, with the carry in at bit 0. -/
theorem addFlags_self_r (a : Byte) (c : Bool) :
    (addFlags a a c).r = (a <<< 1) ||| (if c = true then 1#8 else 0#8) := by
  have hdisjoint : (a <<< 1) &&& (if c = true then 1#8 else 0#8) = 0#8 := by
    ext i hi
    cases c <;> cases i <;> simp
  have hsum := addFlags_isSum a a c
  unfold Byte.IsSum at hsum
  rw [← BitVec.add_eq_or_of_and_eq_zero _ _ hdisjoint]
  apply BitVec.eq_of_toNat_eq
  cases c <;> simp [Nat.shiftLeft_eq] at hsum ⊢ <;> omega

theorem majority_self : ∀ x y : Bool, ((x && x) || (x && !y) || (!y && x)) = x := by decide

theorem sameSign_overflow : ∀ x y : Bool, ((x && x && !y) || (!x && !x && y)) = (x ^^ y) := by decide

/-- The flags of a byte added to itself are the bits that the shift moves. -/
theorem addFlags_self_flags (a : Byte) (c : Bool) :
    (addFlags a a c).c = a[7] ∧ (addFlags a a c).s = a[7] ∧ (addFlags a a c).v = (a[7] ^^ a[6]) ∧ (addFlags a a c).h = a[3] := by
  obtain ⟨-, -, fh, -, fc, -, fv, -, fn, -, fs⟩ := addFlagsFormulas a a c
  have hr : (addFlags a a c).r[7] = a[6] := by
    rw [addFlags_self_r]
    cases c <;> simp
  have hv : (addFlags a a c).v = (a[7] ^^ a[6]) := by
    rw [fv, hr, sameSign_overflow]
  refine ⟨?_, ?_, hv, ?_⟩
  · rw [fc, majority_self]
  · rw [fs, fn, hr, hv, Bool.xor_left_comm, Bool.xor_self, Bool.xor_false]
  · rw [fh, majority_self]

/-- LSL and ROL, as shifts. -/
theorem State.putAlu_shiftLeft (s : State) (d : Reg) (c : Bool) :
    let a := s.reg d
    let t := s.putAlu d (addFlags a a c)
    t.reg d = (a <<< 1) ||| (if c = true then 1#8 else 0#8) ∧ t.flag flagC = a[7] ∧ t.flag flagS = a[7] ∧
      t.flag flagV = (a[7] ^^ a[6]) ∧ t.flag flagH = a[3] := by
  intro a t
  obtain ⟨hreg, -, -, -⟩ := s.putAlu_frame d (addFlags a a c)
  obtain ⟨hh, hs, hv, -, -, hc⟩ := s.putAlu_flags d (addFlags a a c)
  obtain ⟨fc, fs, fv, fh⟩ := addFlags_self_flags a c
  exact ⟨hreg.trans (addFlags_self_r a c), hc.trans fc, hs.trans fs, hv.trans fv, hh.trans fh⟩

/-- Settles O10: all four are a sum; LSL and ROL are the sum of a register with itself. -/
theorem addAdcLslRolResults : Obligations.AddAdcLslRolResults := by
  unfold Obligations.AddAdcLslRolResults
  intro d r s
  refine ⟨⟨_, rfl, s.putAlu_addResult d _ _ _⟩, ⟨_, rfl, s.putAlu_addResult d _ _ _⟩,
    ⟨_, rfl, s.putAlu_addResult d _ _ _, ?lsl⟩, ⟨_, rfl, s.putAlu_addResult d _ _ _, s.putAlu_shiftLeft d _⟩⟩
  case lsl =>
    obtain ⟨hreg, hflags⟩ := s.putAlu_shiftLeft d false
    exact ⟨hreg.trans BitVec.or_zero, hflags⟩

/-! ### Differences (R121, R123) -/

/-- The flags of a difference, where the state has them; `z` is what the byte's Z is combined with. -/
theorem SubFlagsAre.of_flags {a b : Byte} {c z : Bool} {t : State} (hh : t.flag flagH = (subFlags a b c).h)
    (hs : t.flag flagS = (subFlags a b c).s) (hv : t.flag flagV = (subFlags a b c).v) (hn : t.flag flagN = (subFlags a b c).n)
    (hz : t.flag flagZ = ((subFlags a b c).z && z)) (hc : t.flag flagC = (subFlags a b c).c) :
    SubFlagsAre a b c z (subFlags a b c).r t := by
  obtain ⟨fr, fh, -, fc, -, -, -, fv, fn, fz, fs, -⟩ := subFlagsFormulas a b c
  rw [SubFlagsAre, hh, hs, hv, hn, hz, hc]
  refine ⟨fr, fh, fc, fv, ?_, ?_, fs⟩
  · rw [fn, Byte.getElem_seven, decide_eq_true_iff]
  · rw [Bool.and_eq_true, fz]

theorem State.putFlags_subFlagsAre (s : State) (a b : Byte) (c z : Bool) :
    SubFlagsAre a b c z (subFlags a b c).r (s.putFlags ((subFlags a b c).chainZ z)) := by
  obtain ⟨hh, hs, hv, hn, hz, hc⟩ := s.putFlags_flags ((subFlags a b c).chainZ z)
  exact .of_flags hh hs hv hn hz hc

theorem AluOut.chainZ_true (o : AluOut) : o.chainZ true = o := by
  rw [AluOut.chainZ, Bool.and_true]

/-- What every instruction that subtracts with a kept Z does with its difference. -/
theorem State.putAlu_chainZ_subResult (s : State) (d : Reg) (a b : Byte) (c z : Bool) :
    SubResult d a b c z s (s.putAlu d ((subFlags a b c).chainZ z)) := by
  obtain ⟨hreg, -, hgo, hframe⟩ := s.putAlu_frame d ((subFlags a b c).chainZ z)
  obtain ⟨hh, hs, hv, hn, hz, hc⟩ := s.putAlu_flags d ((subFlags a b c).chainZ z)
  refine ⟨?_, hgo, hframe⟩
  rw [hreg]
  exact .of_flags hh hs hv hn hz hc

theorem State.putAlu_subResult (s : State) (d : Reg) (a b : Byte) (c : Bool) :
    SubResult d a b c true s (s.putAlu d (subFlags a b c)) := by
  have h := s.putAlu_chainZ_subResult d a b c true
  rwa [AluOut.chainZ_true] at h

/-- Settles O11: all five are a difference; for NEG the first operand is 0, which gives the flags their own readings. -/
theorem subtractResults : Obligations.SubtractResults := by
  unfold Obligations.SubtractResults
  intro d r k s
  refine ⟨⟨_, rfl, s.putAlu_subResult d _ _ _⟩, ⟨_, rfl, s.putAlu_subResult d _ _ _⟩,
    ⟨_, rfl, s.putAlu_chainZ_subResult d _ _ _ _⟩, ⟨_, rfl, s.putAlu_chainZ_subResult d _ _ _ _⟩,
    ⟨_, rfl, s.putAlu_subResult d _ _ _, ?neg⟩⟩
  case neg =>
    obtain ⟨hreg, -, -, -⟩ := s.putAlu_frame d (subFlags 0#8 (s.reg d) false)
    obtain ⟨hh, -, hv, -, -, hc⟩ := s.putAlu_flags d (subFlags 0#8 (s.reg d) false)
    obtain ⟨fr, -, fh, fc, -, fvs, -⟩ := subFlagsFormulas 0#8 (s.reg d) false
    rw [hreg, hh, hv, hc]
    generalize (s.reg d) = a at *
    refine ⟨fc.trans ?_, fvs.trans ?_, fh.trans ?_⟩
    · have := a.isLt
      simp only [Bool.toNat_false] at fr ⊢
      bv_omega
    · have := a.isLt
      simp only [Bool.toNat_false, Byte.getElem_seven, ne_eq, decide_eq_decide] at fr ⊢
      bv_omega
    · rw [BitVec.getElem_zero]
      cases a[3] <;> simp

/-- Settles O12: all three write the flags of the difference and no register. -/
theorem compareResults : Obligations.CompareResults := by
  unfold Obligations.CompareResults
  intro d r k s
  have plain (a b : Byte) : SubFlagsAre a b false true (subFlags a b false).r (s.putFlags (subFlags a b false)) := by
    have h := s.putFlags_subFlagsAre a b false true
    rwa [AluOut.chainZ_true] at h
  have frame (o : AluOut) := (s.putFlags_frame o).2
  exact ⟨⟨_, _, rfl, plain _ _, frame _⟩, ⟨_, _, rfl, s.putFlags_subFlagsAre _ _ _ _, frame _⟩, ⟨_, _, rfl, plain _ _, frame _⟩⟩

/-! ### Two bytes at a time (R120, R121, R123) -/

theorem toInt_wordOfBytes (l h : Byte) : (wordOfBytes l h).toInt = h.toInt * 256 + l.toNat := by
  have hl := l.isLt
  rw [Word.toInt_eq, Byte.toInt_eq, toNat_wordOfBytes]
  split_ifs <;> omega

/-- A low and a high sum make the 16-bit sum, with its carry. -/
theorem addFlags_chain (l l' h h' : Byte) :
    let lo := addFlags l l' false
    let hi := addFlags h h' lo.c
    wordOfBytes lo.r hi.r = wordOfBytes l h + wordOfBytes l' h' ∧
      (hi.c = true ↔ (wordOfBytes l h).toNat + (wordOfBytes l' h').toNat > 65535) := by
  intro lo hi
  obtain ⟨lr, -, -, lc, -⟩ := addFlagsFormulas l l' false
  obtain ⟨hr, -, -, hc, -⟩ := addFlagsFormulas h h' lo.c
  change lo.r.toNat = _ at lr
  change hi.r.toNat = _ at hr
  change lo.c = true ↔ _ at lc
  change hi.c = true ↔ _ at hc
  have hl := l.isLt
  have hl' := l'.isLt
  refine ⟨BitVec.eq_of_toNat_eq ?_, hc.trans ?_⟩ <;> (try rw [BitVec.toNat_add]) <;> simp only [toNat_wordOfBytes] <;>
    cases hcarry : lo.c <;> simp only [hcarry, Bool.toNat_false, Bool.toNat_true, Bool.false_eq_true, false_iff, true_iff] at lr lc hr ⊢ <;>
    omega

/-- A low and a high difference make the 16-bit difference, with its borrow, its signed order and, by the kept Z, its equality. -/
theorem subFlags_chain (l l' h h' : Byte) :
    let lo := subFlags l l' false
    let hi := subFlags h h' lo.c
    wordOfBytes lo.r hi.r = wordOfBytes l h - wordOfBytes l' h' ∧
      (hi.c = true ↔ (wordOfBytes l h).toNat < (wordOfBytes l' h').toNat) ∧
      (hi.s = true ↔ (wordOfBytes l h).toInt < (wordOfBytes l' h').toInt) ∧
      ((hi.z && lo.z) = true ↔ wordOfBytes l h = wordOfBytes l' h') := by
  intro lo hi
  obtain ⟨lr, -, -, lc, -, -, -, -, -, lz, -⟩ := subFlagsFormulas l l' false
  obtain ⟨hr, -, -, hc, -, -, -, -, -, hz, -, hs⟩ := subFlagsFormulas h h' lo.c
  change (lo.r.toNat : Int) = _ at lr
  change (hi.r.toNat : Int) = _ at hr
  change lo.c = true ↔ _ at lc
  change hi.c = true ↔ _ at hc
  change hi.s = true ↔ _ at hs
  change lo.z = true ↔ lo.r = 0#8 at lz
  change hi.z = true ↔ hi.r = 0#8 at hz
  have hl := l.isLt
  have hl' := l'.isLt
  have hborrow : lo.c.toNat = if l.toNat < l'.toNat then 1 else 0 := by
    cases hcase : lo.c <;> simp_all
  refine ⟨BitVec.eq_of_toNat_eq ?_, hc.trans ?_, hs.trans ?_, ?_⟩
  · rw [BitVec.toNat_sub]
    simp only [toNat_wordOfBytes]
    split_ifs at hborrow <;> rw [hborrow] at hr <;> simp only [Bool.toNat_false] at lr <;> omega
  · simp only [toNat_wordOfBytes]
    split_ifs at hborrow <;> rw [hborrow] <;> omega
  · simp only [toInt_wordOfBytes]
    split_ifs at hborrow <;> rw [hborrow] <;> omega
  · rw [Bool.and_eq_true, hz, lz]
    simp only [← BitVec.toNat_inj, toNat_wordOfBytes, BitVec.toNat_ofNat, Nat.zero_mod, Bool.toNat_false] at lr ⊢
    split_ifs at hborrow <;> rw [hborrow] at hr <;> omega

theorem State.reg_putAlu (s : State) (d j : Reg) (o : AluOut) : (s.putAlu d o).reg j = if j = d then o.r else s.reg j :=
  State.reg_setReg s d j o.r

theorem State.pair_putAlu_putAlu (s : State) (d : Reg) (o o' : AluOut) :
    ((s.putAlu d o).putAlu (d + 1) o').pair d = wordOfBytes o.r o'.r := by
  simp only [State.pair, State.reg_putAlu, if_neg (Reg.succ_ne d).symm, if_true]

/-- The second of two chained instructions still reads the high bytes of both pairs where the first does not write them. -/
theorem State.highBytes_putAlu (s : State) {d r : Reg} (h : d ≠ r + 1) (o : AluOut) :
    (s.putAlu d o).reg (d + 1) = s.reg (d + 1) ∧ (s.putAlu d o).reg (r + 1) = s.reg (r + 1) := by
  simp only [State.reg_putAlu, if_neg (Reg.succ_ne d), if_neg h.symm, and_self]

/-- Settles O13: the chain of two sums, or of two differences, on the bytes of the pairs. -/
theorem twoByteChains : Obligations.TwoByteChains := by
  unfold Obligations.TwoByteChains
  intro d r s
  have hsub := subFlags_chain (s.reg d) (s.reg r) (s.reg (d + 1)) (s.reg (r + 1))
  obtain ⟨sdiff, sc, ss, sz⟩ := hsub
  refine ⟨⟨_, _, rfl, rfl, ?compare⟩, fun h => ⟨_, _, rfl, rfl, ?add⟩, fun h => ⟨_, _, rfl, rfl, ?sub⟩⟩
  case compare =>
    let lo := subFlags (s.reg d) (s.reg r) false
    obtain ⟨-, -, -, -, lz, lc⟩ := s.putFlags_flags lo
    obtain ⟨-, hs, -, -, hz, hc⟩ := (s.putFlags lo).putFlags_flags
      ((subFlags (s.reg (d + 1)) (s.reg (r + 1)) ((s.putFlags lo).flag flagC)).chainZ ((s.putFlags lo).flag flagZ))
    refine ⟨?_, ?_, ?_⟩
    · exact (Bool.eq_iff_iff.mp (hz.trans (by rw [lz, lc]; rfl))).trans sz
    · exact (Bool.eq_iff_iff.mp (hc.trans (by rw [lc]; rfl))).trans sc
    · exact (Bool.eq_iff_iff.mp (hs.trans (by rw [lc]; rfl))).trans ss
  case add =>
    obtain ⟨asum, ac⟩ := addFlags_chain (s.reg d) (s.reg r) (s.reg (d + 1)) (s.reg (r + 1))
    obtain ⟨-, -, -, -, -, lc⟩ := s.putAlu_flags d (addFlags (s.reg d) (s.reg r) false)
    obtain ⟨hd, hr⟩ := s.highBytes_putAlu h (addFlags (s.reg d) (s.reg r) false)
    rw [hd, hr, lc]
    obtain ⟨-, -, -, -, -, hc⟩ := (s.putAlu d (addFlags (s.reg d) (s.reg r) false)).putAlu_flags (d + 1)
      (addFlags (s.reg (d + 1)) (s.reg (r + 1)) (addFlags (s.reg d) (s.reg r) false).c)
    rw [State.pair_putAlu_putAlu, hc]
    exact ⟨asum, ac⟩
  case sub =>
    obtain ⟨-, -, -, -, lz, lc⟩ := s.putAlu_flags d (subFlags (s.reg d) (s.reg r) false)
    obtain ⟨hd, hr⟩ := s.highBytes_putAlu h (subFlags (s.reg d) (s.reg r) false)
    rw [hd, hr, lc, lz]
    obtain ⟨-, -, -, -, hz, hc⟩ := (s.putAlu d (subFlags (s.reg d) (s.reg r) false)).putAlu_flags (d + 1)
      ((subFlags (s.reg (d + 1)) (s.reg (r + 1)) (subFlags (s.reg d) (s.reg r) false).c).chainZ
        (subFlags (s.reg d) (s.reg r) false).z)
    rw [State.pair_putAlu_putAlu, hc, hz]
    exact ⟨sdiff, sc, sz⟩

/-! ### COM, INC, DEC (R139, R143, R144) -/

/-- What a byte result does with a SREG that has S, V, N, Z, C anew. -/
theorem State.putResult_sregSVNZC (s : State) (d : Reg) (r sreg : Byte) {v n z c : Bool} (h : sreg = sregSVNZC s.sreg v n z c) :
    (s.putResult d r sreg).reg d = r ∧ (s.putResult d r sreg).flag flagC = c ∧ (s.putResult d r sreg).flag flagV = v ∧
      (s.putResult d r sreg).flag flagN = n ∧ (s.putResult d r sreg).flag flagZ = z ∧
      (s.putResult d r sreg).flag flagS = (n ^^ v) ∧ GoesOn 1 s (s.putResult d r sreg) ∧
      Frame [d] [flagS, flagV, flagN, flagZ, flagC] s (s.putResult d r sreg) := by
  subst h
  obtain ⟨hreg, hsreg, hgo, hframe⟩ := State.putResult_frame s d r (sregSVNZC s.sreg v n z c) fun _ => sregSVNZC_kept
  refine ⟨hreg, ?_, ?_, ?_, ?_, ?_, hgo, hframe⟩ <;> simp only [State.flag, hsreg, sregSVNZC_bit] <;> rfl

/-- Settles O15: the results and flags of the three, each as a statement about the old byte. -/
theorem comIncDecResults : Obligations.ComIncDecResults := by
  unfold Obligations.ComIncDecResults
  intro d s
  refine ⟨⟨_, rfl, ?com⟩, ⟨_, rfl, ?inc⟩, ⟨_, rfl, ?dec⟩⟩
  case com =>
    obtain ⟨hreg, hc, hv, hn, hz, hs, hframe⟩ :=
      s.putResult_sregSVNZC d (0xFF#8 - s.reg d) (comFlags s.sreg (0xFF#8 - s.reg d)) rfl
    rw [hreg, hc, hv, hn, hz, hs, beq_iff_eq, Bool.xor_false, Byte.msb_eq_getElem]
    exact ⟨by bv_omega, rfl, rfl, rfl, by bv_omega, rfl, hframe⟩
  case inc =>
    obtain ⟨hreg, hv, hn, hz, hs, hframe⟩ := s.putResult_sregSVNZ d (s.reg d + 1#8) (incFlags s.sreg (s.reg d + 1#8)) rfl
    rw [hreg, hv, hn, hz, hs, beq_iff_eq, beq_iff_eq, Byte.msb_eq_getElem]
    exact ⟨by bv_omega, by bv_omega, rfl, by bv_omega, rfl, hframe⟩
  case dec =>
    obtain ⟨hreg, hv, hn, hz, hs, hframe⟩ := s.putResult_sregSVNZ d (s.reg d - 1#8) (decFlags s.sreg (s.reg d - 1#8)) rfl
    rw [hreg, hv, hn, hz, hs, beq_iff_eq, beq_iff_eq, Byte.msb_eq_getElem]
    exact ⟨by bv_omega, by bv_omega, rfl, by bv_omega, rfl, hframe⟩

/-! ### The multiplies (R125) -/

theorem toNat_product16 (a b : Int) : ((product16 a b).toNat : Int) = a * b % 65536 := by
  rw [product16, BitVec.toNat_ofInt]
  omega

theorem toNat_fractional (p : Word) : (fractional p).toNat = 2 * p.toNat % 65536 := by
  rw [fractional, BitVec.toNat_ofNat, Nat.mul_comm]

/-- What every multiply does with its product. -/
theorem State.putProduct_result (s : State) (a b : Int) :
    ProductResult (a * b) false s (s.putProduct (product16 a b) (product16 a b)) ∧
      ProductResult (a * b) true s (s.putProduct (product16 a b) (fractional (product16 a b))) := by
  have hp := toNat_product16 a b
  generalize product16 a b = p at hp
  generalize a * b = n at hp
  have flags (r : Word) : (s.putProduct p r).pair 0 = r ∧ ((s.putProduct p r).flag flagC = true ↔ 32768 ≤ n % 65536) ∧
      ((s.putProduct p r).flag flagZ = true ↔ (s.putProduct p r).pair 0 = 0#16) ∧ GoesOn 1 s (s.putProduct p r) ∧
      Frame [0, 1] [flagZ, flagC] s (s.putProduct p r) := by
    obtain ⟨hpair, hsreg, hgo, hframe⟩ := s.putPair_frame 0 r (mulFlags s.sreg p r) fun _ => sregZC_kept
    change (s.putProduct p r).pair 0 = r at hpair
    change (s.putProduct p r).sreg = _ at hsreg
    refine ⟨hpair, ?_, ?_, hgo, hframe⟩
    · have hc : (s.putProduct p r).flag flagC = p.msb := by
        rw [State.flag, hsreg, mulFlags, sregZC_bit, if_pos rfl]
      rw [hc, Word.msb_eq_decide, decide_eq_true_iff]
      omega
    · have hz : (s.putProduct p r).flag flagZ = (r == 0#16) := by
        rw [State.flag, hsreg, mulFlags, sregZC_bit]
        rfl
      rw [hz, hpair, beq_iff_eq]
  constructor
  · obtain ⟨hpair, hrest⟩ := flags p
    refine ⟨?_, hrest⟩
    rw [hpair, hp]
    rfl
  · obtain ⟨hpair, hrest⟩ := flags (fractional p)
    refine ⟨?_, hrest⟩
    rw [hpair, toNat_fractional, if_pos rfl]
    omega

/-- Settles O17: the three products, under the signedness of each operand. -/
theorem multiplyResults : Obligations.MultiplyResults := by
  unfold Obligations.MultiplyResults
  intro d r s
  exact ⟨⟨_, rfl, (s.putProduct_result _ _).1⟩, ⟨_, rfl, (s.putProduct_result _ _).1⟩, ⟨_, rfl, (s.putProduct_result _ _).1⟩⟩

/-- Settles O18: the same products, doubled. -/
theorem fractionalMultiplyResults : Obligations.FractionalMultiplyResults := by
  unfold Obligations.FractionalMultiplyResults
  intro d r s
  exact ⟨⟨_, rfl, (s.putProduct_result _ _).2⟩, ⟨_, rfl, (s.putProduct_result _ _).2⟩, ⟨_, rfl, (s.putProduct_result _ _).2⟩⟩
end Sys2Proof.Machine
end

section
/-! PROOFS. Bits: shifts, flags, the T bit, I/O bits (family `43_bit_and_bittest`). -/

namespace Sys2Proof.Machine

/-! ### Shifts (R288) -/

/-- What every right shift does with its result. -/
theorem State.putResult_shiftResult (s : State) (d : Reg) (v : Byte) :
    (s.putResult d v (shiftFlags s.sreg v ((s.reg d).getLsbD 0))).reg d = v ∧
      ShiftResult d (s.reg d) s (s.putResult d v (shiftFlags s.sreg v ((s.reg d).getLsbD 0))) := by
  obtain ⟨hreg, hc, hv, hn, hz, hs, hframe⟩ :=
    s.putResult_sregSVNZC d v (shiftFlags s.sreg v ((s.reg d).getLsbD 0)) rfl
  refine ⟨hreg, ?_⟩
  rw [ShiftResult, hreg, hc, hv, hn, hz, hs, beq_iff_eq, Byte.msb_eq_getElem]
  exact ⟨rfl, rfl, Iff.rfl, rfl, by rw [← Bool.xor_assoc, Bool.xor_self, Bool.false_xor], hframe⟩

/-- Bit 7 put into a byte shifted right once. -/
theorem toNat_putBit_seven_shift (a : Byte) (x : Bool) :
    (putBit (a >>> 1) 7 x).toNat = a.toNat / 2 + (if x = true then 128 else 0) := by
  revert a x; decide

/-- The nibbles exchanged. -/
theorem toNat_swap (a : Byte) : ((a <<< 4) ||| (a >>> 4)).toNat = a.toNat % 16 * 16 + a.toNat / 16 := by
  revert a; decide

/-- Settles O19: the three right shifts by what enters at bit 7, and SWAP. -/
theorem shiftAndSwapResults : Obligations.ShiftAndSwapResults := by
  unfold Obligations.ShiftAndSwapResults
  intro d s
  refine ⟨⟨_, rfl, ?lsr⟩, ⟨_, rfl, ?asr⟩, ⟨_, rfl, ?ror⟩, ⟨_, rfl, ?swap⟩⟩
  case lsr =>
    obtain ⟨hreg, hshift⟩ := s.putResult_shiftResult d (s.reg d >>> 1)
    refine ⟨?_, hshift⟩
    rw [hreg, BitVec.toNat_ushiftRight, Nat.shiftRight_eq_div_pow]
  case asr =>
    obtain ⟨hreg, hshift⟩ := s.putResult_shiftResult d (putBit (s.reg d >>> 1) 7 (s.reg d).msb)
    refine ⟨?_, hshift⟩
    have ha := (s.reg d).isLt
    have hv := toNat_putBit_seven_shift (s.reg d) (s.reg d).msb
    rw [hreg]
    simp only [Byte.msb_eq_getElem, Byte.getElem_seven, decide_eq_true_iff, Byte.toInt_eq] at hv ⊢
    split_ifs at hv ⊢ <;> omega
  case ror =>
    obtain ⟨hreg, hshift⟩ := s.putResult_shiftResult d (putBit (s.reg d >>> 1) 7 (s.flag flagC))
    refine ⟨?_, hshift⟩
    rw [hreg, toNat_putBit_seven_shift]
  case swap =>
    obtain ⟨hreg, hgo, hframe⟩ := s.setReg_advance_frame d ((s.reg d <<< 4) ||| (s.reg d >>> 4)) 1
    refine ⟨?_, hgo, hframe⟩
    rw [hreg, toNat_swap]

/-! ### Single flags (R268, R269) -/

theorem State.setFlag_flagPut (s : State) (b : Flag) : FlagPut b true s (s.setFlag b) := by
  refine ⟨(putBit_getLsbD s.sreg b b true).trans (if_pos rfl), fun _ hc => putBit_kept hc, ?_, rfl, fun _ _ => rfl, rfl,
    fun _ => rfl, ⟨rfl, rfl, rfl, rfl⟩, rfl, rfl, rfl, rfl, rfl, fun _ => rfl⟩
  rw [Bool.true_and]
  rfl

theorem State.clearFlag_flagPut (s : State) (b : Flag) : FlagPut b false s (s.clearFlag b) := by
  refine ⟨(putBit_getLsbD s.sreg b b false).trans (if_pos rfl), fun _ hc => putBit_kept hc, ?_, rfl, fun _ _ => rfl, rfl,
    fun _ => rfl, ⟨rfl, rfl, rfl, rfl⟩, rfl, rfl, rfl, rfl, rfl, fun _ => rfl⟩
  rw [Bool.false_and, Bool.or_false]
  rfl

/-- Settles O20: every row of the sixteen is a setting or a clearing of its own bit. -/
theorem flagSetAndClearResults : Obligations.FlagSetAndClearResults := by
  unfold Obligations.FlagSetAndClearResults
  intro b s
  have set := s.setFlag_flagPut
  have clear := s.clearFlag_flagPut
  exact ⟨⟨_, rfl, set b⟩, ⟨_, rfl, clear b⟩, ⟨_, rfl, set 0⟩, ⟨_, rfl, clear 0⟩, ⟨_, rfl, set 1⟩, ⟨_, rfl, clear 1⟩,
    ⟨_, rfl, set 2⟩, ⟨_, rfl, clear 2⟩, ⟨_, rfl, set 3⟩, ⟨_, rfl, clear 3⟩, ⟨_, rfl, set 4⟩, ⟨_, rfl, clear 4⟩,
    ⟨_, rfl, set 5⟩, ⟨_, rfl, clear 5⟩, ⟨_, rfl, set 6⟩, ⟨_, rfl, clear 6⟩, ⟨_, rfl, set 7⟩, ⟨_, rfl, clear 7⟩⟩

/-! ### The T bit (R270, R271) -/

/-- Settles O21: the bit that `putBit` writes, and the seven it keeps. -/
theorem bitTransferResults : Obligations.BitTransferResults := by
  unfold Obligations.BitTransferResults
  intro d b s
  refine ⟨⟨_, rfl, ?bst⟩, ⟨_, rfl, ?bld⟩⟩
  case bst =>
    exact ⟨(putBit_getLsbD s.sreg flagT flagT _).trans (if_pos rfl), rfl,
      Frame.of_fields (fun _ _ => rfl) (fun _ hc => putBit_kept hc) rfl rfl rfl rfl rfl rfl rfl rfl rfl rfl rfl rfl rfl⟩
  case bld =>
    obtain ⟨hreg, hgo, hframe⟩ := s.setReg_advance_frame d (putBit (s.reg d) b (s.flag flagT)) 1
    rw [hreg]
    exact ⟨(putBit_getLsbD _ b b _).trans (if_pos rfl), fun c hc => (putBit_getLsbD _ b c _).trans (if_neg hc), hgo, hframe⟩

/-! ### I/O bits (R260, R261) -/

/-- The locations that SBI and CBI reach are the environment's, on every device. -/
theorem State.coreIo_ioLow (s : State) (p : BitVec 5) : s.coreIo? (ioLow p) = none := by
  have hp : (ioLow p).toNat < 32 := by
    rw [ioLow, BitVec.toNat_setWidth]
    have := p.isLt
    omega
  have hne (q : BitVec 6) (hq : 32 ≤ q.toNat) : ioLow p ≠ q := fun e => by rw [e] at hp; omega
  simp [State.coreIo?, hne 0x3F#6 (by decide), hne 0x3E#6 (by decide), hne 0x3D#6 (by decide), hne 0x3C#6 (by decide),
    hne 0x3B#6 (by decide)]

/-- A read of a location and a write of it, where the location is the environment's. -/
theorem State.updateIo_result (s : State) {p : BitVec 6} (hp : s.coreIo? p = none) (f : Byte → Byte) :
    let x := s.ioRead p
    let t := (x.2.ioWrite p (f x.1)).advance 1
    IoReadEffect p x.1 s x.2 ∧ t.events = .ioWrite p (f x.1) :: .ioRead p x.1 :: s.events ∧ t.ioAnswers = x.2.ioAnswers ∧
      t.draws = x.2.draws ∧ t.boundaries = s.boundaries ∧ GoesOn 1 s t ∧ LoadFrame [] s t := by
  intro x t
  have hread : IoReadEffect p x.1 s x.2 := s.ioRead_effect p
  have hevents : x.2.events = .ioRead p x.1 :: s.events := by
    unfold IoReadEffect at hread
    rw [hp] at hread
    exact hread.1
  obtain ⟨answers, events, draws, henv⟩ := s.ioRead_env p
  change x.2 = _ at henv
  have hp' : x.2.coreIo? p = none := by rw [henv]; exact hp
  have hwrite : x.2.ioWrite p (f x.1) = x.2.emit (.ioWrite p (f x.1)) := by
    unfold State.ioWrite
    unfold State.coreIo? at hp'
    split_ifs at hp' ⊢
    rfl
  have ht : t = (x.2.emit (.ioWrite p (f x.1))).advance 1 := congrArg (·.advance 1) hwrite
  rw [ht]
  refine ⟨hread, congrArg (_ :: ·) hevents, rfl, rfl, ?_, ?_, ?_⟩ <;> rw [henv]
  · rfl
  · rfl
  · exact ⟨fun _ _ => rfl, rfl, rfl, rfl, fun _ => rfl, rfl, rfl, rfl, rfl, rfl, fun _ => rfl⟩

/-- Settles O22: one read and one write of the environment's location, with the bit that `putBit` writes. -/
theorem sbiCbiResults : Obligations.SbiCbiResults := by
  unfold Obligations.SbiCbiResults
  intro p b s
  exact ⟨⟨_, _, _, rfl, s.updateIo_result (s.coreIo_ioLow p) fun v => putBit v b true⟩,
    ⟨_, _, _, rfl, s.updateIo_result (s.coreIo_ioLow p) fun v => putBit v b false⟩⟩
end Sys2Proof.Machine
end

section
/-! PROOFS. Branches, skips, calls and returns (family `41_branch`). -/

namespace Sys2Proof.Machine

/-! ### Branches and jumps (R160, R175) -/

theorem State.branchIf_result (s : State) (c : Bool) (k : BitVec 7) : BranchResult c k s (s.branchIf c k) := by
  cases c
  · exact s.setPc_frame _
  · exact s.setPc_frame _

/-- Settles O23: every one of the twenty is `branchIf` on its own flag. -/
theorem conditionalBranchResults : Obligations.ConditionalBranchResults := by
  unfold Obligations.ConditionalBranchResults
  intro b k s
  have set (c : Flag) := s.branchIf_result (s.flag c) k
  have clear (c : Flag) := s.branchIf_result (!s.flag c) k
  exact ⟨⟨_, rfl, set b⟩, ⟨_, rfl, clear b⟩, ⟨_, rfl, set 0⟩, ⟨_, rfl, set 0⟩, ⟨_, rfl, set 1⟩, ⟨_, rfl, set 2⟩, ⟨_, rfl, set 3⟩,
    ⟨_, rfl, set 4⟩, ⟨_, rfl, set 5⟩, ⟨_, rfl, set 6⟩, ⟨_, rfl, set 7⟩, ⟨_, rfl, clear 0⟩, ⟨_, rfl, clear 0⟩, ⟨_, rfl, clear 1⟩,
    ⟨_, rfl, clear 2⟩, ⟨_, rfl, clear 3⟩, ⟨_, rfl, clear 4⟩, ⟨_, rfl, clear 5⟩, ⟨_, rfl, clear 6⟩, ⟨_, rfl, clear 7⟩⟩

theorem State.toNat_ptr_z (s : State) : (s.ptr .z).toNat = 256 * (s.reg 31).toNat + (s.reg 30).toNat := by
  rw [Nat.mul_comm]
  exact toNat_wordOfBytes (s.reg 30) (s.reg 31)

/-- Settles O24: each jump is `setPc` of its target. -/
theorem jumpResults : Obligations.JumpResults := by
  unfold Obligations.JumpResults
  intro k a s
  refine ⟨⟨_, rfl, s.setPc_frame _⟩, ⟨_, rfl, ?ijmp⟩, ⟨_, rfl, s.setPc_frame _⟩, ⟨_, rfl, ?eijmp⟩⟩
  case ijmp =>
    rw [← s.toNat_ptr_z]
    exact s.setPc_frame _
  case eijmp =>
    rw [Nat.add_assoc, ← s.toNat_ptr_z]
    exact s.setPc_frame _

/-! ### Skips (R93, R161) -/

/-- A skip over words that can be measured. -/
theorem State.skipLen_of_skipsWords {s : State} {a n : Nat} (h : SkipsWords n s a) : s.skipLen a = .next n := by
  obtain ⟨w, hw, ⟨rfl, hl⟩ | ⟨rfl, hl, i, hi, himpl⟩⟩ := h
  · simp only [State.skipLen, hw, hl, Bool.false_eq_true, if_false]
  · simp only [State.skipLen, hw, hl, hi, himpl, if_true]

theorem State.skipIf_false (s : State) : s.skipIf false = .next (s.advance 1) := rfl

/-- A skip in a state `u` that measures the next word as `s` does. -/
theorem State.skipIf_of_skipsWords {s u : State} {n : Nat} (hpc : u.pc = s.pc) (hlen : ∀ a, u.skipLen a = s.skipLen a)
    (h : SkipsWords n s (s.pc.toNat + 1)) : u.skipIf true = .next (u.advance (1 + n)) := by
  rw [State.skipIf, if_pos rfl, hpc, hlen, State.skipLen_of_skipsWords h]
  rfl

theorem State.advance_frame (s : State) (n : Nat) : GoesOn n s (s.advance n) ∧ Frame [] [] s (s.advance n) :=
  s.setPc_frame (s.pc.toNat + n)

/-- Settles O25: the three conditions, each with both outcomes. -/
theorem registerSkipResults : Obligations.RegisterSkipResults := by
  unfold Obligations.RegisterSkipResults
  intro d r b s
  have skip {i : Instr} {c : Bool} (hexec : exec i s = s.skipIf c) (hc : c = false) :
      ∃ t, exec i s = .next t ∧ GoesOn 1 s t ∧ Frame [] [] s t := by
    rw [hexec, hc]
    exact ⟨_, s.skipIf_false, s.advance_frame 1⟩
  have pass {i : Instr} {c : Bool} {n : Nat} (hn : SkipsWords n s (s.pc.toNat + 1)) (hexec : exec i s = s.skipIf c) (hc : c = true) :
      ∃ t, exec i s = .next t ∧ GoesOn (1 + n) s t ∧ Frame [] [] s t := by
    rw [hexec, hc]
    exact ⟨_, State.skipIf_of_skipsWords rfl (fun _ => rfl) hn, s.advance_frame (1 + n)⟩
  refine ⟨fun hne => skip (i := .cpse d r) rfl (decide_eq_false hne), fun hb => skip (i := .sbrc d b) rfl (by rw [hb]; rfl),
    fun hb => skip (i := .sbrs d b) rfl hb, fun n hn => ⟨fun heq => ?_, fun hb => ?_, fun hb => ?_⟩⟩
  · exact pass hn (i := .cpse d r) rfl (decide_eq_true heq)
  · exact pass hn (i := .sbrc d b) rfl (by rw [hb]; rfl)
  · exact pass hn (i := .sbrs d b) rfl hb

/-- A read is also a read into any state with the same environment. -/
theorem IoReadEffect.of_sameEnv {p : BitVec 6} {v : Byte} {s t u : State} (h : IoReadEffect p v s t) (henv : SameEnv t u) :
    IoReadEffect p v s u := by
  obtain ⟨hb, ha, he, hd⟩ := henv
  unfold IoReadEffect at h ⊢
  cases hcore : s.coreIo? p <;> simp only [hcore] at h ⊢
  case some x =>
    obtain ⟨hv, hb', ha', he', hd'⟩ := h
    exact ⟨hv, hb.trans hb', ha.trans ha', he.trans he', hd.trans hd'⟩
  case none =>
    rw [hb, ha, he, hd]
    exact h

/-- What a read of a location leaves, with the program counter moved. -/
theorem State.ioRead_advance (s : State) (p : BitVec 6) (n : Nat) :
    IoReadEffect p (s.ioRead p).1 s ((s.ioRead p).2.advance n) ∧ GoesOn n s ((s.ioRead p).2.advance n) ∧
      LoadFrame [] s ((s.ioRead p).2.advance n) := by
  refine ⟨(s.ioRead_effect p).of_sameEnv ⟨rfl, rfl, rfl, rfl⟩, ?_⟩
  obtain ⟨answers, events, draws, h⟩ := s.ioRead_env p
  rw [h]
  exact ⟨rfl, fun _ _ => rfl, rfl, rfl, rfl, fun _ => rfl, rfl, rfl, rfl, rfl, rfl, fun _ => rfl⟩

/-- A read of a location does not change how far a skip goes. -/
theorem State.ioRead_skipLen (s : State) (p : BitVec 6) :
    (s.ioRead p).2.pc = s.pc ∧ ∀ a, (s.ioRead p).2.skipLen a = s.skipLen a := by
  obtain ⟨answers, events, draws, h⟩ := s.ioRead_env p
  rw [h]
  exact ⟨rfl, fun _ => rfl⟩

/-- Settles O26: after the read, the skip of a register's bit. -/
theorem ioSkipResults : Obligations.IoSkipResults := by
  unfold Obligations.IoSkipResults
  intro p b s v hv
  subst hv
  obtain ⟨hpc, hlen⟩ := s.ioRead_skipLen (ioLow p)
  have skip {i : Instr} {c : Bool} (hexec : exec i s = (s.ioRead (ioLow p)).2.skipIf c) (hc : c = false) :
      exec i s = .next ((s.ioRead (ioLow p)).2.advance 1) := by
    rw [hexec, hc, State.skipIf_false]
  have pass {i : Instr} {c : Bool} {n : Nat} (hn : SkipsWords n s (s.pc.toNat + 1))
      (hexec : exec i s = (s.ioRead (ioLow p)).2.skipIf c) (hc : c = true) :
      exec i s = .next ((s.ioRead (ioLow p)).2.advance (1 + n)) := by
    rw [hexec, hc, State.skipIf_of_skipsWords hpc hlen hn]
  refine ⟨fun hb => ⟨_, skip (i := .sbic p b) rfl ?_, s.ioRead_advance _ 1⟩,
    fun hb => ⟨_, skip (i := .sbis p b) rfl hb, s.ioRead_advance _ 1⟩,
    fun n hn => ⟨fun hb => ⟨_, pass hn (i := .sbic p b) rfl ?_, s.ioRead_advance _ (1 + n)⟩,
      fun hb => ⟨_, pass hn (i := .sbis p b) rfl hb, s.ioRead_advance _ (1 + n)⟩⟩⟩
  · exact (congrArg (!·) hb).trans rfl
  · exact (congrArg (!·) hb).trans rfl

/-- A skip whose condition holds stops where the next word cannot be measured. -/
theorem State.skipIf_stops {s u : State} (hpc : u.pc = s.pc) (hlen : ∀ a, u.skipLen a = s.skipLen a) :
    (s.cfg.flashWords ≤ (s.pc.toNat + 1) % 2 ^ s.cfg.pcBits →
      u.skipIf true = .fault (.fetchOutOfRange ((s.pc.toNat + 1) % 2 ^ s.cfg.pcBits))) ∧
    (∀ w i, s.progWord? ((s.pc.toNat + 1) % 2 ^ s.cfg.pcBits) = some w → isLongWord w = true →
      decodeWords w 0#16 = some i → i.implementedOn s.cfg.core = false → u.skipIf true = .refused .skipOverUnimplemented) := by
  rw [State.skipIf, if_pos rfl, hpc, hlen]
  refine ⟨fun hout => ?_, fun w i hw hl hi himpl => ?_⟩
  · rw [State.skipLen_out hout]
    rfl
  · rw [State.skipLen_unimplemented hw hl hi himpl]
    rfl

/-- Settles O27: all five are one skip, SBIC and SBIS after their read. -/
theorem skipStops : Obligations.SkipStops := by
  unfold Obligations.SkipStops
  intro d r p b s
  obtain ⟨hpc, hlen⟩ := s.ioRead_skipLen (ioLow p)
  have register := State.skipIf_stops (s := s) (u := s) rfl fun _ => rfl
  have io := State.skipIf_stops hpc hlen
  have after {i : Instr} {c : Bool} {u : State} (hexec : exec i s = u.skipIf c) (hc : c = true) : exec i s = u.skipIf true := by
    rw [hexec, hc]
  simp only [List.forall_mem_cons, List.not_mem_nil, false_imp_iff, implies_true, and_true]
  refine ⟨fun hc => ?_, fun hc => ?_, fun hc => ?_, fun hc => ?_, fun hc => ?_⟩
  · rw [after (i := .cpse d r) rfl hc]
    exact register
  · rw [after (i := .sbrc r b) rfl hc]
    exact register
  · rw [after (i := .sbrs r b) rfl hc]
    exact register
  · rw [after (i := .sbic p b) rfl hc]
    exact io
  · rw [after (i := .sbis p b) rfl hc]
    exact io

/-! ### Calls and returns on the data stack (R73, R74, R162, R165, R166) -/

/-- A pushed return address does not speak of the program counter. -/
theorem Pushed.setPc {a : PcWord} {s t : State} (h : Pushed a s t) (n : Nat) : Pushed a s (t.setPc n) :=
  ⟨h.sp, h.sram, h.reg, h.sramFrame, h.regFrame, h.cfg, h.hwStack, h.boundaries, h.ioAnswers, h.draws, h.prog, h.noIo⟩

theorem State.callTo_result {s : State} (n target : Nat) (h : CanPush s.cfg.retBytes s) :
    ∃ t, s.callTo n target = .next t ∧ CallResult (s.cfg.wrapPc (s.pc.toNat + n)) target s t := by
  obtain ⟨t, ht, hpushed, -, hrun, hquiet⟩ := State.pushPc_pushed (s.cfg.wrapPc (s.pc.toNat + n)) h
  refine ⟨t.setPc target, ?_, ?_, hpushed.setPc target, hrun, hquiet⟩
  · rw [State.callTo, ht, bindRes_next]
  · rw [State.setPc_pc, hpushed.cfg]

/-- Settles O28: each call is `callTo` of its length and target. -/
theorem callsOnTheDataStack : Obligations.CallsOnTheDataStack := by
  unfold Obligations.CallsOnTheDataStack
  intro k a s h
  exact ⟨State.callTo_result 1 _ h, State.callTo_result 1 _ h, State.callTo_result 2 _ h, State.callTo_result 1 _ h⟩

/-- A popped return address does not speak of SREG and the shadow. -/
theorem Popped.setSreg {s t : State} (h : Popped s t) (v : Byte) (x : Bool) : Popped s { t with sreg := v, irqShadow := x } where
  sp := h.sp
  two b1 b0 hb h1 h0 := by
    obtain ⟨hpc, henv⟩ := h.two b1 b0 hb h1 h0
    exact ⟨hpc, henv.1, henv.2, henv.3, henv.4⟩
  three b2 b1 b0 hb h2 h1 h0 := by
    obtain ⟨hpc, henv⟩ := h.three b2 b1 b0 hb h2 h1 h0
    exact ⟨hpc, henv.1, henv.2, henv.3, henv.4⟩
  regs := h.regs
  sram := h.sram
  rest := ⟨h.rest.cfg, h.rest.rampz, h.rest.eind, h.rest.hwStack, h.rest.runState, h.rest.prog⟩

/-- Settles O29: the pop of the address, and for RETI the flag I and the shadow. -/
theorem returnsFromTheDataStack : Obligations.ReturnsFromTheDataStack := by
  unfold Obligations.ReturnsFromTheDataStack
  intro s h
  obtain ⟨n, t, ht, hpopped, -, hsreg, hshadow⟩ := State.popPc_popped h
  constructor
  case left =>
    refine ⟨{ t with pc := s.cfg.wrapPc n }, ?_, hpopped, hsreg, hshadow⟩
    change s.returnFromCall = _
    rw [State.returnFromCall, ht, bindRes_next]
  case right =>
    refine ⟨_, ?_, hpopped.setSreg (putBit t.sreg flagI true) true, ?_, fun b hb => ?_, rfl⟩
    · change s.returnFromIrq = _
      rw [State.returnFromIrq, ht, bindRes_next]
    · exact (putBit_getLsbD t.sreg flagI flagI true).trans (if_pos rfl)
    · exact (putBit_kept hb).trans (by rw [hsreg]; rfl)

/-! ### Calls and returns on the hardware stack (R45) -/

section
variable {s : State}

theorem State.pushPc_hardware (a : PcWord) (hs : s.cfg.hasSp = false) (hroom : s.hwStack.length < s.cfg.hwStackDepth) :
    s.pushPc a = .next { s with hwStack := a :: s.hwStack } := by
  rw [State.pushPc, hs, if_neg Bool.false_ne_true, if_neg (Nat.not_le.mpr hroom)]

theorem State.pushPc_overflow (a : PcWord) (hs : s.cfg.hasSp = false) (hfull : s.cfg.hwStackDepth ≤ s.hwStack.length) :
    s.pushPc a = .fault .hwStackOverflow := by
  rw [State.pushPc, hs, if_neg Bool.false_ne_true, if_pos hfull]

theorem State.popPc_hardware {a : PcWord} {rest : List PcWord} (hs : s.cfg.hasSp = false) (hstack : s.hwStack = a :: rest) :
    s.popPc = .next (a, { s with hwStack := rest }) := by
  rw [State.popPc, hs, if_neg Bool.false_ne_true, hstack]

theorem State.popPc_underflow (hs : s.cfg.hasSp = false) (hstack : s.hwStack = []) : s.popPc = .fault .hwStackUnderflow := by
  rw [State.popPc, hs, if_neg Bool.false_ne_true, hstack]

end

/-- Settles O30: the four outcomes of the hardware stack. -/
theorem hardwareStackCallsAndReturns : Obligations.HardwareStackCallsAndReturns := by
  unfold Obligations.HardwareStackCallsAndReturns
  intro k s hs
  refine ⟨fun hroom => ?call, fun hfull => ?overflow, fun a rest hstack => ⟨?ret, ?reti⟩, fun hstack => ⟨?retEmpty, ?retiEmpty⟩⟩
  case call =>
    refine ⟨({ s with hwStack := s.cfg.wrapPc (s.pc.toNat + 1) :: s.hwStack } : State).setPc (s.relTarget k.toInt), ?_, rfl, rfl,
      fun _ _ => rfl, rfl, rfl, rfl, fun _ => rfl, ⟨rfl, rfl, rfl, rfl⟩, rfl, rfl, rfl, rfl, fun _ => rfl⟩
    change s.callTo 1 _ = _
    rw [State.callTo, State.pushPc_hardware _ hs hroom, bindRes_next]
  case overflow =>
    change s.callTo 1 _ = _
    rw [State.callTo, State.pushPc_overflow _ hs hfull, bindRes_fault]
  case ret =>
    refine ⟨{ s with hwStack := rest, pc := a }, ?_, rfl, rfl, fun _ _ => rfl, rfl, rfl, rfl, fun _ => rfl,
      ⟨rfl, rfl, rfl, rfl⟩, rfl, rfl, rfl, rfl, fun _ => rfl⟩
    change s.returnFromCall = _
    rw [State.returnFromCall, State.popPc_hardware hs hstack, bindRes_next]
  case reti =>
    refine ⟨{ s with hwStack := rest, pc := a, sreg := putBit s.sreg flagI true, irqShadow := true }, ?_, rfl, rfl,
      fun _ _ => rfl, ?_, fun _ hb => putBit_kept hb, rfl, rfl, fun _ => rfl, ⟨rfl, rfl, rfl, rfl⟩, rfl, rfl, rfl, rfl, fun _ => rfl⟩
    · change s.returnFromIrq = _
      rw [State.returnFromIrq, State.popPc_hardware hs hstack, bindRes_next]
    · exact (putBit_getLsbD s.sreg flagI flagI true).trans (if_pos rfl)
  case retEmpty =>
    change s.returnFromCall = _
    rw [State.returnFromCall, State.popPc_underflow hs hstack, bindRes_fault]
  case retiEmpty =>
    change s.returnFromIrq = _
    rw [State.returnFromIrq, State.popPc_underflow hs hstack, bindRes_fault]

/-! ### A return after a call, or after an interrupt entry -/

/-- The bytes of the return address that would be pushed lie in SRAM. -/
def StackInSram (s : State) : Prop := ∀ j, j < s.cfg.retBytes → dataRegion s.cfg (s.sp - BitVec.ofNat 16 j) = .sram

theorem sram_bounds {c : Config} {a : Word} (h : dataRegion c a = .sram) : 0x60 ≤ a.toNat := by
  unfold dataRegion at h
  split_ifs at h
  omega

theorem toNat_pcByte (a : PcWord) (k : Nat) : (pcByte a k).toNat = a.toNat / 256 ^ k % 256 := BitVec.toNat_ofNat _ _

theorem retBytes_two {c : Config} (h : c.retBytes = 2) : c.pcBits ≤ 16 := by
  unfold Config.retBytes at h
  by_contra hn
  rw [if_neg hn] at h
  exact absurd h (by decide)

/-- A return address is the number of the bytes it was pushed as. -/
theorem pcBytes_two {c : Config} {a : PcWord} (hb : c.retBytes = 2) (ha : a.toNat < 2 ^ c.pcBits) :
    (pcByte a 1).toNat * 256 + (pcByte a 0).toNat = a.toNat := by
  have hlt : a.toNat < 2 ^ 16 := Nat.lt_of_lt_of_le ha (Nat.pow_le_pow_right (by decide) (retBytes_two hb))
  simp only [toNat_pcByte]
  omega

theorem pcBytes_three (a : PcWord) :
    (pcByte a 2).toNat * 65536 + (pcByte a 1).toNat * 256 + (pcByte a 0).toNat = a.toNat := by
  have := a.isLt
  simp only [toNat_pcByte]
  omega

section
variable {s t : State} {a : PcWord}

/-- Counted up from the new SP, the stacked bytes are those counted down from the old one. -/
theorem Pushed.stackAddr (h : Pushed a s t) {j : Nat} (hj : j < s.cfg.retBytes) :
    t.sp + BitVec.ofNat 16 (s.cfg.retBytes - j) = s.sp - BitVec.ofNat 16 j := by
  have hn := retBytes_cases s.cfg
  rw [h.sp]
  bv_omega

theorem Pushed.stackHolds (h : Pushed a s t) (hsram : StackInSram s) {j : Nat} (hj : j < s.cfg.retBytes) :
    StackHolds t (s.cfg.retBytes - j) (pcByte a j) := by
  have hr := hsram j hj
  have hlo := sram_bounds hr
  rw [StackHolds, h.stackAddr hj, h.cfg, hr, State.peek, if_neg (by omega), if_neg (by omega)]
  exact ⟨by simp, h.sram j hj hr⟩

/-- Popping a pushed address gives it back, with SP as before. -/
theorem Pushed.popPc (h : Pushed a s t) (hs : s.cfg.hasSp = true) (hsram : StackInSram s) (ha : a.toNat < 2 ^ s.cfg.pcBits) :
    ∃ u, t.popPc = .next (a, u) ∧ u.sp = s.sp ∧ SameRegs [] t u ∧ SameSram t u ∧ SameRest t u ∧ u.sreg = t.sreg := by
  have hn := retBytes_cases s.cfg
  have hpop : CanPop t.cfg.retBytes t := by
    rw [h.cfg]
    refine ⟨h.cfg ▸ hs, fun j hj hj' => ?_⟩
    have haddr := h.stackAddr (j := s.cfg.retBytes - j) (by omega)
    rw [show s.cfg.retBytes - (s.cfg.retBytes - j) = j by omega] at haddr
    rw [haddr, h.cfg, hsram _ (by omega)]
    simp
  obtain ⟨n, u, hu, hpopped, -, hsreg, -⟩ := State.popPc_popped hpop
  have hpc : t.cfg.wrapPc n = a := by
    rw [← Config.wrapPc_toNat s.cfg a ha, h.cfg]
    have held := fun j => h.stackHolds hsram (j := j)
    rcases hn with hb | hb <;> simp only [hb] at held
    · obtain ⟨hpc, -⟩ := hpopped.two _ _ (h.cfg ▸ hb) (held 1 (by decide)) (held 0 (by decide))
      rw [pcBytes_two hb ha, h.cfg] at hpc
      exact hpc
    · obtain ⟨hpc, -⟩ := hpopped.three _ _ _ (h.cfg ▸ hb) (held 2 (by decide)) (held 1 (by decide)) (held 0 (by decide))
      rw [pcBytes_three, h.cfg] at hpc
      exact hpc
  rw [hpc] at hu
  obtain ⟨rcfg, rrampz, reind, rhw, rrun, rprog⟩ := hpopped.rest
  refine ⟨u, hu, ?_, hpopped.regs, hpopped.sram, ⟨rcfg, rrampz, reind, rhw, rrun, rprog⟩, hsreg⟩
  have hsp : u.sp = t.sp + BitVec.ofNat 16 t.cfg.retBytes := hpopped.sp
  rw [hsp, h.sp, h.cfg]
  bv_omega

/-- A push into SRAM reaches no register. -/
theorem Pushed.sameRegs (h : Pushed a s t) (hsram : StackInSram s) : SameRegs [] s t := by
  intro i _
  refine h.regFrame i fun j hj e => ?_
  have hlo := sram_bounds (hsram j hj)
  have := i.isLt
  omega

end

theorem State.callTo_then_return {s : State} (n target : Nat) (hsram : s.cfg.hasSp = true → StackInSram s)
    (hroom : s.cfg.hasSp = false → s.hwStack.length < s.cfg.hwStackDepth) :
    ∃ t u, s.callTo n target = .next t ∧ t.returnFromCall = .next u ∧ u.pc = s.cfg.wrapPc (s.pc.toNat + n) ∧ u.sp = s.sp ∧
      u.hwStack = s.hwStack ∧ SameRegs [] s u ∧ u.sreg = s.sreg ∧
      ∀ b : Word, (s.cfg.hasSp = true → ∀ j, j < s.cfg.retBytes → b ≠ s.sp - BitVec.ofNat 16 j) →
        u.sramByte? b = s.sramByte? b := by
  cases hs : s.cfg.hasSp
  case true =>
    have hsram := hsram hs
    obtain ⟨t, ht, -, hpushed, -, hquiet⟩ := State.callTo_result (s := s) n target
      ⟨hs, fun j hj => by rw [hsram j hj]; simp⟩
    obtain ⟨hsreg, -, -⟩ := hquiet fun j hj => by rw [hsram j hj]; simp
    obtain ⟨u, hu, hsp, hregs, husram, hrest, husreg⟩ := hpushed.popPc hs hsram (Config.wrapPc_lt _ _)
    refine ⟨t, { u with pc := s.cfg.wrapPc (s.pc.toNat + n) }, ht, ?_, rfl, hsp, ?_, ?_, ?_, ?_⟩
    · rw [State.returnFromCall, hu, bindRes_next]
    · exact hrest.hwStack.trans hpushed.hwStack
    · exact fun i hi => (hregs i hi).trans (hpushed.sameRegs hsram i hi)
    · exact husreg.trans hsreg
    · exact fun b hb => (husram b).trans (hpushed.sramFrame b (hb rfl))
  case false =>
    have ht : s.callTo n target = .next
        (({ s with hwStack := s.cfg.wrapPc (s.pc.toNat + n) :: s.hwStack } : State).setPc target) := by
      rw [State.callTo, State.pushPc_hardware _ hs (hroom hs), bindRes_next]
    have hpop := State.popPc_hardware
      (s := ({ s with hwStack := s.cfg.wrapPc (s.pc.toNat + n) :: s.hwStack } : State).setPc target) hs rfl
    refine ⟨_, { s with pc := s.cfg.wrapPc (s.pc.toNat + n) }, ht, ?_, rfl, rfl, rfl, fun _ _ => rfl, rfl, fun _ _ => rfl⟩
    rw [State.returnFromCall, hpop]
    rfl

/-- Settles O31: both calls are `callTo`, of one word and of two. -/
theorem callThenReturn : Obligations.CallThenReturn := by
  unfold Obligations.CallThenReturn
  intro k a s _ _ hsram hroom
  simp only [List.forall_mem_cons, List.not_mem_nil, false_imp_iff, implies_true, and_true]
  exact ⟨State.callTo_then_return 1 _ hsram hroom, State.callTo_then_return 2 _ hsram hroom⟩
end Sys2Proof.Machine
end

section
/-! PROOFS. Reading the data space; loads, stores, stack, I/O and program memory (families `20_memory` and `42_data_transfer`). -/

namespace Sys2Proof.Machine

/-! ### Reading a data address (R63, R85, R345) -/

theorem State.memRead_of_register {s : State} {a : Word} (h : dataRegion s.cfg a = .register) :
    s.memRead a = .next (s.reg (regOfData a), s) := by
  simp only [State.memRead, h]

theorem State.memRead_of_io {s : State} {a : Word} (h : dataRegion s.cfg a = .io) : s.memRead a = .next (s.ioRead (ioOfData a)) := by
  simp only [State.memRead, h]

theorem State.memRead_of_written {s : State} {a : Word} {v : Byte} (h : dataRegion s.cfg a = .sram) (hv : s.sramByte? a = some v) :
    s.memRead a = .next (v, s) := by
  simp only [State.memRead, h, hv]

theorem State.memRead_of_unwritten {s : State} {a : Word} (h : dataRegion s.cfg a = .sram) (hv : s.sramByte? a = none) :
    s.memRead a = .next s.draw := by
  simp only [State.memRead, h, hv]

/-- Settles O32: one line of R63 per region of the address. -/
theorem memReadByRegion : Obligations.MemReadByRegion := by
  unfold Obligations.MemReadByRegion
  intro s a
  refine ⟨fun ha => ?register, fun hsp hlo => ?noSram, fun hsp hlo hhi => ?io, fun hsp hlo hhi => ⟨fun v hv => ?written, fun hv => ?unwritten⟩,
    fun _ hlo hhi => ?above⟩
  case register => exact State.memRead_of_register (dataRegion_eq_register ha)
  case noSram => exact State.memRead_of_unimplemented (dataRegion_unimplemented_iff.mpr (.inr ⟨hlo, hsp⟩))
  case io => exact State.memRead_of_io (dataRegion_eq_io hsp hlo hhi)
  case written => exact State.memRead_of_written (dataRegion_eq_sram hsp hlo hhi) hv
  case unwritten => exact State.memRead_of_unwritten (dataRegion_eq_sram hsp hlo hhi) hv
  case above => exact State.memRead_of_unimplemented (dataRegion_unimplemented_iff.mpr (.inl ⟨hlo, hhi⟩))

/-- Of a read, the state after matters by its environment only. -/
theorem MemReadEffect.of_sameEnv {a : Word} {v : Byte} {s t u : State} (h : MemReadEffect a v s t) (henv : SameEnv t u) :
    MemReadEffect a v s u := by
  obtain ⟨hb, ha, he, hd⟩ := henv
  have kept (h : SameEnv s t) : SameEnv s u := ⟨hb.trans h.1, ha.trans h.2, he.trans h.3, hd.trans h.4⟩
  unfold MemReadEffect at h ⊢
  cases hr : dataRegion s.cfg a <;> simp only [hr] at h ⊢
  case register => exact ⟨h.1, kept h.2⟩
  case io => exact h.of_sameEnv ⟨hb, ha, he, hd⟩
  case sram =>
    cases hv : s.sramByte? a <;> simp only [hv] at h ⊢
    case some => exact ⟨h.1, kept h.2⟩
    case none =>
      rw [hb, ha, he, hd]
      exact h

/-! ### Loads (R210) -/

/-- The environment's data apart, and the registers `regs` and the program counter, nothing changes. -/
theorem LoadFrame.of_env {regs : List Reg} {s t : State} {r : Vector Byte 32} {pc : PcWord} {answers : List Byte}
    {events : List EnvEvent} {draws : Nat} (hregs : SameRegs regs s t)
    (h : t = { s with regs := r, pc := pc, ioAnswers := answers, events := events, draws := draws }) : LoadFrame regs s t := by
  subst h
  exact ⟨hregs, rfl, rfl, rfl, fun _ => rfl, rfl, rfl, rfl, rfl, rfl, fun _ => rfl⟩

theorem State.loadFrom_result {s : State} {a : Word} (d : Reg) (n : Nat) (h : dataRegion s.cfg a ≠ .unimplemented) :
    ∃ t, s.loadFrom d a n = .next t ∧ MemReadEffect a (t.reg d) s t ∧ GoesOn n s t ∧ LoadFrame [d] s t := by
  obtain ⟨v, u, hu⟩ := State.memRead_of_implemented h
  refine ⟨(u.setReg d v).advance n, ?_, ?_, ?_⟩
  · rw [State.loadFrom, hu, bindRes_next]
  · have hreg : ((u.setReg d v).advance n).reg d = v := State.reg_setReg_same u d v
    rw [hreg]
    exact (State.memRead_effect hu).of_sameEnv ⟨rfl, rfl, rfl, rfl⟩
  · obtain ⟨answers, events, draws, rfl⟩ := State.memRead_env hu
    exact ⟨rfl, .of_env (State.setReg_sameRegs _ d v) rfl⟩

/-- Settles O34: each plain or displaced form is `loadFrom` of its address. -/
theorem plainLoadResults : Obligations.PlainLoadResults := by
  unfold Obligations.PlainLoadResults
  intro d q k s
  simp only [List.forall_mem_cons, List.not_mem_nil, false_imp_iff, implies_true, and_true]
  exact ⟨State.loadFrom_result d 1, State.loadFrom_result d 1, State.loadFrom_result d 1, State.loadFrom_result d 1,
    State.loadFrom_result d 1, State.loadFrom_result d 2⟩

theorem Ptr.has_eq_false {p : Ptr} {d : Reg} (h : p.has d = false) : d ≠ p.lo ∧ d ≠ p.lo + 1 := by
  rw [Ptr.has, decide_eq_false_iff_not, not_or] at h
  exact h

theorem Ptr.owns_eq_false {p : Ptr} {a : Word} (h : p.owns a = false) : a.toNat ≠ p.lo.val ∧ a.toNat ≠ p.lo.val + 1 := by
  rw [Ptr.owns, decide_eq_false_iff_not, not_or] at h
  exact h

/-- What the post-increment and pre-decrement loads share: the byte of `a` and the pointer `x`. -/
theorem State.loadStep_result {s : State} {d : Reg} {p : Ptr} {a : Word} (x : Word) (hd : p.has d = false) (ha : p.owns a = false)
    (h : dataRegion s.cfg a ≠ .unimplemented) :
    ∃ t, guardPtr p d a (bindRes (s.memRead a) fun y => .next (((y.2.setReg d y.1).setPtr p x).advance 1)) = .next t ∧
      MemReadEffect a (t.reg d) s t ∧ t.ptr p = x ∧ GoesOn 1 s t ∧ LoadFrame [d, p.lo, p.lo + 1] s t := by
  obtain ⟨v, u, hu⟩ := State.memRead_of_implemented h
  obtain ⟨hlo, hhi⟩ := Ptr.has_eq_false hd
  have regs (w : State) (i : Reg) : (((w.setReg d v).setPtr p x).advance 1).reg i =
      if i = p.lo + 1 then hiByte x else if i = p.lo then loByte x else if i = d then v else w.reg i :=
    (State.reg_setPair _ p.lo i x).trans (by rw [State.reg_setReg])
  refine ⟨((u.setReg d v).setPtr p x).advance 1, ?_, ?_, State.pair_setPair_same _ p.lo x, ?_⟩
  · rw [guardPtr_ok hd ha, hu, bindRes_next]
  · rw [regs, if_neg hhi, if_neg hlo, if_pos rfl]
    exact (State.memRead_effect hu).of_sameEnv ⟨rfl, rfl, rfl, rfl⟩
  · obtain ⟨answers, events, draws, rfl⟩ := State.memRead_env hu
    refine ⟨rfl, .of_env (fun i hi => ?_) rfl⟩
    simp only [List.mem_cons, List.not_mem_nil, or_false, not_or] at hi
    obtain ⟨hid, hilo, hihi⟩ := hi
    rw [regs, if_neg hihi, if_neg hilo, if_neg hid]
    rfl

/-- Settles O35: the six are one form, with the old pointer or the decremented one as address. -/
theorem stepLoadResults : Obligations.StepLoadResults := by
  unfold Obligations.StepLoadResults
  intro d s
  simp only [List.forall_mem_cons, List.not_mem_nil, false_imp_iff, implies_true, and_true]
  exact ⟨State.loadStep_result _, State.loadStep_result _, State.loadStep_result _, State.loadStep_result _,
    State.loadStep_result _, State.loadStep_result _⟩

/-! ### Stores (R210) -/

/-- What a store did is left by a change of the program counter, of SP, and of registers it may change besides. -/
theorem StoreEffect.withRegs {regs regs' : List Reg} {a : Word} {v : Byte} {s t : State} {r : Vector Byte 32} {pc : PcWord} {sp : Word}
    (h : StoreEffect regs a v s t) (hsub : regs ⊆ regs') (hregs : SameRegs regs' t { t with regs := r, pc := pc, sp := sp })
    (hown : dataRegion s.cfg a = .register →
      ({ t with regs := r, pc := pc, sp := sp } : State).reg (regOfData a) = t.reg (regOfData a)) :
    StoreEffect regs' a v s { t with regs := r, pc := pc, sp := sp } := by
  have grow (i : Reg) (hi : i ∉ regs') : i ∉ regs := fun hn => hi (hsub hn)
  have env (h : SameEnv s t) : SameEnv s { t with regs := r, pc := pc, sp := sp } := ⟨h.1, h.2, h.3, h.4⟩
  have rest (h : SameRest s t) : SameRest s { t with regs := r, pc := pc, sp := sp } := ⟨h.1, h.2, h.3, h.4, h.5, h.6⟩
  unfold StoreEffect at h ⊢
  cases hr : dataRegion s.cfg a <;> simp only [hr] at h ⊢
  case register =>
    obtain ⟨hv, hsame, hsreg, hshadow, hsram, henv, hrest⟩ := h
    refine ⟨(hown hr).trans hv, fun i hi => ?_, hsreg, hshadow, hsram, env henv, rest hrest⟩
    simp only [List.mem_cons, not_or] at hi
    exact (hregs i hi.2).trans (hsame i (by simp only [List.mem_cons, not_or]; exact ⟨hi.1, grow i hi.2⟩))
  case io =>
    obtain ⟨hsame, hsram, he⟩ := h
    exact ⟨fun i hi => (hregs i hi).trans (hsame i (grow i hi)), hsram,
      ⟨he.sreg, he.irqShadow, he.eind, he.rampz, he.events, he.cfg, he.hwStack, he.runState, he.boundaries, he.ioAnswers, he.draws,
        he.prog⟩⟩
  case sram =>
    obtain ⟨hv, hother, hsame, hsreg, hshadow, henv, hrest⟩ := h
    exact ⟨hv, hother, fun i hi => (hregs i hi).trans (hsame i (grow i hi)), hsreg, hshadow, env henv, rest hrest⟩

theorem State.storeTo_result {s : State} {a : Word} (r : Reg) (n : Nat) (h : dataRegion s.cfg a ≠ .unimplemented) :
    ∃ t, s.storeTo a r n = .next t ∧ StoreEffect [] a (s.reg r) s t ∧ t.sp = spAfterStore a (s.reg r) s ∧ GoesOn n s t := by
  obtain ⟨u, hu⟩ := State.memWrite_of_implemented (s.reg r) h
  obtain ⟨heffect, hsp, hpc⟩ := State.memWrite_effect hu
  refine ⟨u.advance n, ?_, heffect.withRegs (List.Subset.refl _) (fun _ _ => rfl) (fun _ => rfl), hsp, ?_⟩
  · rw [State.storeTo, hu, bindRes_next]
  · have hcfg : u.cfg = s.cfg := (Within.memWrite (f := ⟨[a], [], [], false, false⟩) (.head _) hu).cfg
    change u.cfg.wrapPc (u.pc.toNat + n) = _
    rw [hcfg, hpc]

/-- Settles O36: each plain or displaced form is `storeTo` of its address. -/
theorem plainStoreResults : Obligations.PlainStoreResults := by
  unfold Obligations.PlainStoreResults
  intro r q k s
  simp only [List.forall_mem_cons, List.not_mem_nil, false_imp_iff, implies_true, and_true]
  exact ⟨State.storeTo_result r 1, State.storeTo_result r 1, State.storeTo_result r 1, State.storeTo_result r 1,
    State.storeTo_result r 1, State.storeTo_result r 2⟩

/-- What the post-increment and pre-decrement stores share: the byte at `a` and the pointer `x`. -/
theorem State.storeStep_result {s : State} {r : Reg} {p : Ptr} {a : Word} (x : Word) (hr : p.has r = false) (ha : p.owns a = false)
    (h : dataRegion s.cfg a ≠ .unimplemented) :
    ∃ t, guardPtr p r a (bindRes (s.memWrite a (s.reg r)) fun u => .next ((u.setPtr p x).advance 1)) = .next t ∧
      StoreEffect [p.lo, p.lo + 1] a (s.reg r) s t ∧ t.sp = spAfterStore a (s.reg r) s ∧ t.ptr p = x ∧ GoesOn 1 s t := by
  obtain ⟨u, hu⟩ := State.memWrite_of_implemented (s.reg r) h
  obtain ⟨heffect, hsp, hpc⟩ := State.memWrite_effect hu
  refine ⟨(u.setPtr p x).advance 1, ?_, heffect.withRegs (List.nil_subset _) (u.setPair_sameRegs p.lo x) fun hreg => ?_, hsp,
    State.pair_setPair_same u p.lo x, ?_⟩
  · rw [guardPtr_ok hr ha, hu, bindRes_next]
  · obtain ⟨hlo, hhi⟩ := Ptr.owns_eq_false ha
    have hval := (regOfData_eq_iff hreg (regOfData a)).mp rfl
    refine u.setPair_sameRegs p.lo x (regOfData a) ?_
    simp only [List.mem_cons, List.not_mem_nil, or_false, not_or, ← Fin.val_inj, hval]
    exact ⟨hlo, by cases p <;> exact hhi⟩
  · have hcfg : u.cfg = s.cfg := (Within.memWrite (f := ⟨[a], [], [], false, false⟩) (.head _) hu).cfg
    change u.cfg.wrapPc (u.pc.toNat + 1) = _
    rw [hcfg, hpc]

/-- Settles O37: the six are one form, with the old pointer or the decremented one as address. -/
theorem stepStoreResults : Obligations.StepStoreResults := by
  unfold Obligations.StepStoreResults
  intro r s
  simp only [List.forall_mem_cons, List.not_mem_nil, false_imp_iff, implies_true, and_true]
  exact ⟨State.storeStep_result _, State.storeStep_result _, State.storeStep_result _, State.storeStep_result _,
    State.storeStep_result _, State.storeStep_result _⟩

/-! ### Refusals and stops (R211, R63, R64) -/

theorem guardPtr_pointerAsData {p : Ptr} {r : Reg} {a : Word} {f : Res State} (h : r = p.lo ∨ r = p.lo + 1) :
    guardPtr p r a f = .refused .pointerAsData :=
  if_pos (decide_eq_true h)

theorem guardPtr_pointerSelfAccess {p : Ptr} {r : Reg} {a : Word} {f : Res State} (hlo : r ≠ p.lo) (hhi : r ≠ p.lo + 1)
    (h : a.toNat = p.lo.val ∨ a.toNat = p.lo.val + 1) : guardPtr p r a f = .refused .pointerSelfAccess := by
  have hr : p.has r = false := decide_eq_false (not_or.mpr ⟨hlo, hhi⟩)
  have ha : p.owns a = true := decide_eq_true h
  rw [guardPtr, hr, ha, if_neg Bool.false_ne_true, if_pos rfl]

/-- Settles O38: the twelve data-space forms are guarded by `guardPtr`, the two of program memory by its first check. -/
theorem pointerConflictsRefused : Obligations.PointerConflictsRefused := by
  unfold Obligations.PointerConflictsRefused
  intro d s
  have asData {p : Ptr} {a : Word} {f : Res State} := @guardPtr_pointerAsData p d a f
  have self {p : Ptr} {a : Word} {f : Res State} := @guardPtr_pointerSelfAccess p d a f
  have prog {f : Res State} (h : d = Ptr.z.lo ∨ d = Ptr.z.lo + 1) :
      (if Ptr.z.has d = true then .refused .pointerAsData else f) = (.refused .pointerAsData : Res State) :=
    if_pos (decide_eq_true h)
  simp only [List.forall_mem_cons, List.not_mem_nil, false_imp_iff, implies_true, and_true]
  exact ⟨⟨asData, asData, asData, asData, asData, asData, asData, asData, asData, asData, asData, asData, prog, prog⟩,
    self, self, self, self, self, self, self, self, self, self, self, self⟩

section
variable {s : State} {a : Word} (h : NoDataAt s.cfg a)
include h

theorem NoDataAt.memRead : s.memRead a = .fault (.unimplementedData a.toNat) :=
  State.memRead_of_unimplemented (dataRegion_unimplemented_iff.mpr h)

theorem NoDataAt.memWrite (v : Byte) : s.memWrite a v = .fault (.unimplementedData a.toNat) :=
  State.memWrite_of_unimplemented v (dataRegion_unimplemented_iff.mpr h)

theorem NoDataAt.loadFrom (d : Reg) (n : Nat) : s.loadFrom d a n = .fault (.unimplementedData a.toNat) := by
  rw [State.loadFrom, h.memRead, bindRes_fault]

theorem NoDataAt.storeTo (r : Reg) (n : Nat) : s.storeTo a r n = .fault (.unimplementedData a.toNat) := by
  rw [State.storeTo, h.memWrite, bindRes_fault]

/-- No pointer has half of itself where nothing is implemented. -/
theorem NoDataAt.owns (p : Ptr) : p.owns a = false := by
  have hlo : p.lo.val ≤ 30 := by cases p <;> decide
  refine decide_eq_false (not_or.mpr ?_)
  rcases h with ⟨h5F, -⟩ | ⟨h1F, -⟩ <;> omega

theorem NoDataAt.loadStep {p : Ptr} {r : Reg} (hr : p.has r = false) (f : Byte × State → Res State) :
    guardPtr p r a (bindRes (s.memRead a) f) = .fault (.unimplementedData a.toNat) := by
  rw [guardPtr_ok hr (h.owns p), h.memRead, bindRes_fault]

theorem NoDataAt.storeStep {p : Ptr} {r : Reg} (hr : p.has r = false) (v : Byte) (f : State → Res State) :
    guardPtr p r a (bindRes (s.memWrite a v) f) = .fault (.unimplementedData a.toNat) := by
  rw [guardPtr_ok hr (h.owns p), h.memWrite, bindRes_fault]

end

theorem implemented_of_not_noDataAt {c : Config} {a : Word} (h : ¬ NoDataAt c a) : dataRegion c a ≠ .unimplemented :=
  fun hn => h (dataRegion_unimplemented_iff.mp hn)

/-- Settles O39: the access of every form stops, and with it the form. -/
theorem unimplementedDataStops : Obligations.UnimplementedDataStops := by
  unfold Obligations.UnimplementedDataStops
  intro d q k o a s
  refine ⟨?plain, ?steps, fun hs j hj hbefore hat => ⟨?calls, fun n hn => ?interrupt⟩, fun hs j hj hj' hbefore hat => ?returns⟩
  case plain =>
    have load {b : Word} (n : Nat) (h : NoDataAt s.cfg b) := h.loadFrom d n
    have store {b : Word} (n : Nat) (h : NoDataAt s.cfg b) := h.storeTo d n
    simp only [List.forall_mem_cons, List.not_mem_nil, false_imp_iff, implies_true, and_true]
    refine ⟨load 1, load 1, load 1, load 1, load 1, load 2, store 1, store 1, store 1, store 1, store 1, store 2,
      fun h => ?push, fun h => ?pop⟩
    case push =>
      change bindRes (s.push8 (s.reg d)) _ = _
      rw [State.push8_of_unimplemented _ (dataRegion_unimplemented_iff.mpr h), bindRes_fault]
    case pop =>
      change bindRes s.pop8 _ = _
      rw [State.pop8_of_unimplemented (dataRegion_unimplemented_iff.mpr h), bindRes_fault]
  case steps =>
    have load {p : Ptr} {b : Word} {f : Byte × State → Res State} (hd : p.has d = false) (h : NoDataAt s.cfg b) := h.loadStep hd f
    have store {p : Ptr} {b : Word} {f : State → Res State} (hd : p.has d = false) (h : NoDataAt s.cfg b) :=
      h.storeStep hd (s.reg d) f
    simp only [List.forall_mem_cons, List.not_mem_nil, false_imp_iff, implies_true, and_true]
    exact ⟨load, load, store, store, load, load, store, store, load, load, store, store⟩
  case calls =>
    have call (n target : Nat) : s.callTo n target = .fault (.unimplementedData (s.sp - BitVec.ofNat 16 j).toNat) := by
      rw [State.callTo, State.pushPc_of_unimplemented _ hs hj (fun m hm => implemented_of_not_noDataAt (hbefore m hm))
        (dataRegion_unimplemented_iff.mpr hat), bindRes_fault]
    simp only [List.forall_mem_cons, List.not_mem_nil, false_imp_iff, implies_true, and_true]
    exact ⟨call 1 _, call 1 _, call 2 _, call 1 _⟩
  case interrupt =>
    have hpush : s.popBoundary.pushPc s.pc = .fault (.unimplementedData (s.sp - BitVec.ofNat 16 j).toNat) :=
      State.pushPc_of_unimplemented (s := s.popBoundary) s.pc hs hj (fun m hm => implemented_of_not_noDataAt (hbefore m hm))
        (dataRegion_unimplemented_iff.mpr hat)
    rw [step, hn]
    change bindRes (s.popBoundary.pushPc s.pc) _ = _
    rw [hpush, bindRes_fault]
  case returns =>
    have hpop := State.popPc_of_unimplemented hs hj hj' (fun m hm hm' => implemented_of_not_noDataAt (hbefore m hm hm'))
      (dataRegion_unimplemented_iff.mpr hat)
    simp only [List.forall_mem_cons, List.not_mem_nil, false_imp_iff, implies_true, and_true]
    constructor
    · change bindRes s.popPc _ = _
      rw [hpop, bindRes_fault]
    · change bindRes s.popPc _ = _
      rw [hpop, bindRes_fault]

/-! ### PUSH and POP (R241, R242) -/

/-- A read that does not reach SP's own bytes does not see SP. -/
theorem MemReadEffect.of_sp {a : Word} {v : Byte} {s t : State} (sp : Word) (h : MemReadEffect a v { s with sp := sp } t)
    (h5D : a ≠ 0x5D#16) (h5E : a ≠ 0x5E#16) : MemReadEffect a v s t := by
  have env (h : SameEnv { s with sp := sp } t) : SameEnv s t := ⟨h.1, h.2, h.3, h.4⟩
  unfold MemReadEffect at h ⊢
  cases hr : dataRegion s.cfg a <;> simp only [hr] at h ⊢
  case register => exact ⟨h.1, env h.2⟩
  case io =>
    have hdata := dataOfIo_ioOfData hr
    have h3D : ioOfData a ≠ 0x3D#6 := fun e => h5D (by rw [← hdata, e]; rfl)
    have h3E : ioOfData a ≠ 0x3E#6 := fun e => h5E (by rw [← hdata, e]; rfl)
    have hcore : ({ s with sp := sp } : State).coreIo? (ioOfData a) = s.coreIo? (ioOfData a) := by
      simp only [State.coreIo?, h3D, h3E, false_and, if_false]
    unfold IoReadEffect at h ⊢
    rw [hcore] at h
    cases hv : s.coreIo? (ioOfData a) <;> simp only [hv] at h ⊢
    case some => exact ⟨h.1, env h.2⟩
    case none => exact h
  case sram =>
    have hbyte : ({ s with sp := sp } : State).sramByte? a = s.sramByte? a := rfl
    rw [hbyte] at h
    cases hv : s.sramByte? a <;> simp only [hv] at h ⊢
    case some => exact ⟨h.1, env h.2⟩
    case none => exact h

theorem State.exec_push {s t : State} {d : Reg} (h : s.memWrite s.sp (s.reg d) = .next t) :
    exec (.push d) s = .next (({ t with sp := s.sp - 1#16 } : State).advance 1) := by
  change bindRes (s.push8 (s.reg d)) _ = _
  rw [State.push8, h, bindRes_next, bindRes_next]

theorem State.exec_pop {s t : State} {v : Byte} {d : Reg} (h : s.pop8 = .next (v, t)) :
    exec (.pop d) s = .next ((t.setReg d v).advance 1) := by
  change bindRes s.pop8 _ = _
  rw [h, bindRes_next]

/-- SP's own bytes, read through the data space. -/
theorem State.memRead_spl {s : State} (hs : s.cfg.hasSp = true) : s.memRead 0x5D#16 = .next (loByte s.sp, s) := by
  have hio : s.ioRead (ioOfData 0x5D#16) = (loByte s.sp, s) := by
    have hp : ioOfData 0x5D#16 = 0x3D#6 := by decide
    have hcore : s.coreIo? 0x3D#6 = some (loByte s.sp) := by simp [State.coreIo?, hs]
    rw [hp, State.ioRead, hcore]
  rw [State.memRead_of_io (dataRegion_eq_io hs (by decide) (by decide)), hio]

theorem State.memRead_sph {s : State} (hs : s.cfg.hasSp = true) : s.memRead 0x5E#16 = .next (hiByte s.sp, s) := by
  have hio : s.ioRead (ioOfData 0x5E#16) = (hiByte s.sp, s) := by
    have hp : ioOfData 0x5E#16 = 0x3E#6 := by decide
    have hcore : s.coreIo? 0x3E#6 = some (hiByte s.sp) := by simp [State.coreIo?, hs]
    rw [hp, State.ioRead, hcore]
  rw [State.memRead_of_io (dataRegion_eq_io hs (by decide) (by decide)), hio]

/-- A pop of one of SP's own bytes gives that byte of the new SP. -/
theorem State.pop8_own {s : State} (hs : s.cfg.hasSp = true) (h : s.sp + 1#16 = 0x5D#16 ∨ s.sp + 1#16 = 0x5E#16) :
    s.pop8 = .next (if s.sp + 1#16 = 0x5D#16 then 0x5D#8 else 0x00#8, { s with sp := s.sp + 1#16 }) := by
  rcases h with h | h <;> rw [State.pop8, h]
  · rw [State.memRead_spl (s := { s with sp := 0x5D#16 }) hs, if_pos rfl, show loByte 0x5D#16 = 0x5D#8 by decide]
  · rw [State.memRead_sph (s := { s with sp := 0x5E#16 }) hs, if_neg (by decide), show hiByte 0x5E#16 = 0x00#8 by decide]

/-- Settles O40: one write and one read of the data space, at the old SP and at the new. -/
theorem pushAndPopResults : Obligations.PushAndPopResults := by
  unfold Obligations.PushAndPopResults
  intro d s
  refine ⟨fun h => ?push, fun h h5D h5E => ?pop, fun hs h => ?own⟩
  case push =>
    obtain ⟨t, ht⟩ := State.memWrite_of_implemented (s.reg d) h
    obtain ⟨heffect, -, hpc⟩ := State.memWrite_effect ht
    refine ⟨_, State.exec_push ht, heffect.withRegs (List.Subset.refl _) (fun _ _ => rfl) (fun _ => rfl), rfl, ?_⟩
    have hcfg : t.cfg = s.cfg := (Within.memWrite (f := ⟨[s.sp], [], [], false, false⟩) (.head _) ht).cfg
    change t.cfg.wrapPc (t.pc.toNat + 1) = _
    rw [hcfg, hpc]
  case pop =>
    obtain ⟨v, t, ht⟩ := State.pop8_of_implemented h
    obtain ⟨hread, answers, events, draws, rfl⟩ := State.pop8_next ht
    refine ⟨_, State.exec_pop ht, ?_, rfl, rfl, State.setReg_sameRegs _ d v, rfl, rfl, fun _ => rfl,
      rfl, rfl, rfl, rfl, rfl, fun _ => rfl⟩
    have hreg (u : State) : ((u.setReg d v).advance 1).reg d = v := State.reg_setReg_same u d v
    rw [hreg]
    exact (hread.of_sp _ h5D h5E).of_sameEnv ⟨rfl, rfl, rfl, rfl⟩
  case own =>
    exact ⟨_, State.exec_pop (State.pop8_own hs h), State.reg_setReg_same _ d _, rfl, rfl, ⟨rfl, rfl, rfl, rfl⟩,
      State.setReg_sameRegs _ d _, rfl, rfl, fun _ => rfl, rfl, rfl, rfl, rfl, rfl, fun _ => rfl⟩

/-! ### IN and OUT (R216, R217) -/

/-- A write of an I/O location does not speak of the program counter. -/
theorem IoWriteEffect.advance {p : BitVec 6} {v : Byte} {s t : State} (h : IoWriteEffect p v s t) (n : Nat) :
    IoWriteEffect p v s (t.advance n) :=
  ⟨h.sreg, h.irqShadow, h.eind, h.rampz, h.events, h.cfg, h.hwStack, h.runState, h.boundaries, h.ioAnswers, h.draws, h.prog⟩

/-- Settles O41: one read and one write of the location. -/
theorem inAndOutResults : Obligations.InAndOutResults := by
  unfold Obligations.InAndOutResults
  intro d p s
  refine ⟨⟨((s.ioRead p).2.setReg d (s.ioRead p).1).advance 1, rfl, ?read, ?frame⟩, ⟨(s.ioWrite p (s.reg d)).advance 1, rfl, ?out⟩⟩
  case read =>
    have hreg : (((s.ioRead p).2.setReg d (s.ioRead p).1).advance 1).reg d = (s.ioRead p).1 := State.reg_setReg_same _ d _
    rw [hreg]
    exact (s.ioRead_effect p).of_sameEnv ⟨rfl, rfl, rfl, rfl⟩
  case frame =>
    obtain ⟨answers, events, draws, h⟩ := s.ioRead_env p
    rw [h]
    exact ⟨rfl, .of_env (State.setReg_sameRegs _ d _) rfl⟩
  case out =>
    obtain ⟨hregs, hsram, hpc, -, hsp⟩ := s.ioWrite_frame p (s.reg d)
    have heffect := s.ioWrite_effect p (s.reg d)
    refine ⟨heffect.advance 1, hsp, fun i _ => ?_, fun a => ?_, ?_⟩
    · change (s.ioWrite p (s.reg d)).reg i = s.reg i
      rw [State.reg, hregs]
      rfl
    · change (s.ioWrite p (s.reg d)).sramByte? a = s.sramByte? a
      rw [State.sramByte?, hsram]
      rfl
    · change (s.ioWrite p (s.reg d)).cfg.wrapPc ((s.ioWrite p (s.reg d)).pc.toNat + 1) = _
      rw [heffect.cfg, hpc]

/-! ### Moves (R147, R212, R213, R244) -/

theorem State.setPair_advance_frame (s : State) (d : Reg) (v : Word) :
    ((s.setPair d v).advance 1).pair d = v ∧ GoesOn 1 s ((s.setPair d v).advance 1) ∧
      Frame [d, d + 1] [] s ((s.setPair d v).advance 1) :=
  ⟨State.pair_setPair_same s d v, rfl,
    Frame.of_fields (State.setPair_sameRegs s d v) (fun _ _ => rfl) rfl rfl rfl rfl rfl rfl rfl rfl rfl rfl rfl rfl rfl⟩

/-- Settles O42: one register, or one pair, and nothing else. -/
theorem moveResults : Obligations.MoveResults := by
  unfold Obligations.MoveResults
  intro d r k s
  exact ⟨⟨_, rfl, s.setReg_advance_frame d _ 1⟩, ⟨_, rfl, s.setReg_advance_frame d _ 1⟩, ⟨_, rfl, s.setReg_advance_frame d _ 1⟩,
    ⟨_, rfl, s.setPair_advance_frame d _⟩⟩

/-! ### Program memory (R218, R243 to R250) -/

section
variable {s : State} {b : Nat}

theorem State.progByteRead_of_lt (h : b / 2 < s.cfg.flashWords) : s.progByteRead b = .next (s.progByte b) := by
  rw [State.progByteRead_eq, if_pos h]

theorem State.progByteRead_of_le (h : s.cfg.flashWords ≤ b / 2) : s.progByteRead b = .fault (.unimplementedProgram (b / 2)) := by
  rw [State.progByteRead_eq, if_neg (Nat.not_lt.mpr h)]

theorem State.loadProg_result (d : Reg) (h : b / 2 < s.cfg.flashWords) :
    ∃ t, s.loadProg d b = .next t ∧ t.reg d = s.progByte b ∧ GoesOn 1 s t ∧ Frame [d] [] s t := by
  refine ⟨_, ?_, s.setReg_advance_frame d (s.progByte b) 1⟩
  rw [State.loadProg, State.progByteRead_of_lt h, bindRes_next]

theorem State.loadProg_stops (d : Reg) (h : s.cfg.flashWords ≤ b / 2) :
    s.loadProg d b = .fault (.unimplementedProgram (b / 2)) := by
  rw [State.loadProg, State.progByteRead_of_le h, bindRes_fault]

end

section
variable {d : Reg} (h30 : d ≠ 30) (h31 : d ≠ 31)
include h30 h31

theorem Ptr.z_has_eq_false : Ptr.z.has d = false := decide_eq_false (not_or.mpr ⟨h30, h31⟩)

/-- A data register and the pointer Z, written one after the other. -/
theorem State.setReg_setPtr_z (s : State) (v : Byte) (x : Word) :
    ((s.setReg d v).setPtr .z x).reg d = v ∧ ((s.setReg d v).setPtr .z x).pair 30 = x ∧
      SameRegs [d, 30, 31] s ((s.setReg d v).setPtr .z x) := by
  have regs (i : Reg) : ((s.setReg d v).setPtr .z x).reg i =
      if i = 31 then hiByte x else if i = 30 then loByte x else if i = d then v else s.reg i :=
    (State.reg_setPair _ 30 i x).trans (by rw [State.reg_setReg]; rfl)
  refine ⟨by rw [regs, if_neg h31, if_neg h30, if_pos rfl], State.pair_setPair_same _ 30 x, fun i hi => ?_⟩
  simp only [List.mem_cons, List.not_mem_nil, or_false, not_or] at hi
  obtain ⟨hid, hi30, hi31⟩ := hi
  rw [regs, if_neg hi31, if_neg hi30, if_neg hid]

end

/-- The carry of the 24-bit pointer RAMPZ:Z (R250). -/
theorem extPointer_succ (e : Nat) :
    (BitVec.ofNat 8 ((e + 1) / 65536)).toNat * 65536 + (BitVec.ofNat 16 (e + 1)).toNat = (e + 1) % 2 ^ 24 := by
  simp only [BitVec.toNat_ofNat]
  omega

/-- Settles O43: the four plain forms are `loadProg`; the post-increment forms besides move Z or RAMPZ:Z. -/
theorem programLoadResults : Obligations.ProgramLoadResults := by
  unfold Obligations.ProgramLoadResults
  intro d s z e hz he
  obtain rfl : z = s.lpmAddr := hz
  obtain rfl : e = s.elpmAddr := he
  refine ⟨fun h => ⟨State.loadProg_result 0 h, State.loadProg_result d h, fun h30 h31 => ?lpmInc⟩,
    fun h => ⟨State.loadProg_result 0 h, State.loadProg_result d h, fun h30 h31 => ?elpmInc⟩,
    fun h => ⟨State.loadProg_stops 0 h, State.loadProg_stops d h, fun h30 h31 => ?lpmStop⟩,
    fun h => ⟨State.loadProg_stops 0 h, State.loadProg_stops d h, fun h30 h31 => ?elpmStop⟩⟩
  case lpmInc =>
    obtain ⟨hreg, hpair, hregs⟩ := State.setReg_setPtr_z h30 h31 s (s.progByte s.lpmAddr) (s.ptr .z + 1#16)
    refine ⟨((s.setReg d (s.progByte s.lpmAddr)).setPtr .z (s.ptr .z + 1#16)).advance 1, ?_, hreg, ?_, rfl,
      Frame.of_fields hregs (fun _ _ => rfl) rfl rfl rfl rfl rfl rfl rfl rfl rfl rfl rfl rfl rfl⟩
    · change s.loadProgInc d = _
      rw [State.loadProgInc, Ptr.z_has_eq_false h30 h31, if_neg Bool.false_ne_true, State.progByteRead_of_lt h, bindRes_next]
    · exact (congrArg BitVec.toNat hpair).trans (BitVec.toNat_add _ _)
  case elpmInc =>
    obtain ⟨hreg, hpair, hregs⟩ := State.setReg_setPtr_z h30 h31 s (s.progByte s.elpmAddr) (BitVec.ofNat 16 (s.elpmAddr + 1))
    refine ⟨((({ s.setReg d (s.progByte s.elpmAddr) with rampz := BitVec.ofNat 8 ((s.elpmAddr + 1) / 65536) } : State).setPtr .z
      (BitVec.ofNat 16 (s.elpmAddr + 1))).advance 1), ?_, hreg, ?_, rfl, hregs, rfl, rfl, rfl, fun _ => rfl, ⟨rfl, rfl, rfl, rfl⟩, rfl,
      rfl, rfl, rfl, fun _ => rfl⟩
    · change s.loadProgExtInc d = _
      rw [State.loadProgExtInc, Ptr.z_has_eq_false h30 h31, if_neg Bool.false_ne_true, State.progByteRead_of_lt h, bindRes_next]
    · rw [← extPointer_succ]
      exact congrArg (_ + BitVec.toNat ·) hpair
  case lpmStop =>
    change s.loadProgInc d = _
    rw [State.loadProgInc, Ptr.z_has_eq_false h30 h31, if_neg Bool.false_ne_true, State.progByteRead_of_le h, bindRes_fault]
  case elpmStop =>
    change s.loadProgExtInc d = _
    rw [State.loadProgExtInc, Ptr.z_has_eq_false h30 h31, if_neg Bool.false_ne_true, State.progByteRead_of_le h, bindRes_fault]

/-- Settles O44: the word that `setProgWord` writes, under each parameter value. -/
theorem spmResults : Obligations.SpmResults := by
  unfold Obligations.SpmResults
  intro s a ha
  have hexec : exec .spm s = execSpm s := rfl
  rw [hexec, execSpm]
  change a = (s.ptr .z).toNat / 2 at ha
  refine ⟨fun hm hlt => ?inside, fun hm hle => ?outside, fun hm => ?refuse⟩ <;> rw [hm] <;> dsimp only
  case inside =>
    rw [← ha, if_pos hlt]
    have bytes (b : Nat) := s.progByte_setProgWord a b (s.pair 0)
    refine ⟨_, rfl, s.progWord_setProgWord a (s.pair 0) hlt, (bytes (2 * a)).trans ?_, (bytes (2 * a + 1)).trans ?_,
      fun b hb hb' => (bytes b).trans ?_, rfl, fun _ _ => rfl, rfl, rfl, rfl, rfl, fun _ => rfl, ⟨rfl, rfl, rfl, rfl⟩, rfl, rfl, rfl, rfl⟩
    · rw [if_neg (by omega), if_pos rfl]
      exact loByte_wordOfBytes _ _
    · rw [if_pos rfl]
      exact hiByte_wordOfBytes _ _
    · rw [if_neg hb', if_neg hb]
  case outside => rw [← ha, if_neg (Nat.not_lt.mpr hle)]

/-! ### MCU control (R300 to R303) -/

/-- Settles O45: each instruction under each value of its parameter. -/
theorem mcuControlResults : Obligations.McuControlResults := by
  unfold Obligations.McuControlResults
  intro s
  have hsleep : exec .sleep s = execSleep s := rfl
  have hbreak : exec .brk s = execBrk s := rfl
  have frame : GoesOn 1 s (s.advance 1) ∧ Frame [] [] s (s.advance 1) := s.advance_frame 1
  rw [hsleep, hbreak, execSleep, execBrk]
  refine ⟨⟨_, rfl, frame⟩, ⟨_, rfl, rfl, rfl, rfl⟩, fun hm => ?sleepWait, fun hm => ?sleepNop, fun hm => ?sleepRefuse,
    fun hm => ?breakStop, fun hm => ?breakNop, fun hm => ?breakRefuse⟩ <;> rw [hm]
  case sleepWait => exact ⟨_, rfl, rfl, rfl, rfl⟩
  case sleepNop | breakNop => exact ⟨_, rfl, frame⟩
  case breakStop => exact ⟨_, rfl, rfl, rfl, rfl⟩
end Sys2Proof.Machine
end

section
/-! PROOFS. Fetching, interrupts, reset and the end of a run (families `10_state`, `60_exceptions`, `70_reset_and_hazards`). -/

namespace Sys2Proof

/-! ### The second word of a one-word instruction (R92) -/

/-- An encoding belongs to one instruction that is no synonym row. -/
theorem eq_of_encode_eq {i j : Instr} (hi : i.wellFormed = true) (hci : i.canonical = i) (hj : j.wellFormed = true)
    (hcj : j.canonical = j) (h : encode i = encode j) : i = j := by
  have hbytes : encodeBytes i = encodeBytes j := by rw [encodeBytes, encodeBytes, h]
  have hdi := decodeOfEncode i hi []
  rw [hbytes, decodeOfEncode j hj [], hci, hcj] at hdi
  cases hdi
  rfl

/-- Whether words decode to something is up to the first. -/
theorem exists_decodeWords {w w1 : Word} {i : Instr} (h : decodeWords w w1 = some i) (w2 : Word) :
    ∃ j, decodeWords w w2 = some j := by
  obtain ⟨row, hrow, hhits, -⟩ := decodeWords_eq_some_iff.mp h
  exact ⟨_, decodeWords_eq_some_iff.mpr ⟨row, hrow, hhits, rfl⟩⟩

theorem decodeWords_of_short {w w1 : Word} {i : Instr} (hshort : isLongWord w = false) (h : decodeWords w w1 = some i) (w2 : Word) :
    decodeWords w w2 = some i := by
  obtain ⟨j, hj⟩ := exists_decodeWords h w2
  obtain ⟨hwf, hcanonical, hencode, -⟩ := spelledBy_of_decodeWords h
  obtain ⟨hwf', hcanonical', hencode', -⟩ := spelledBy_of_decodeWords hj
  rw [hshort, if_neg Bool.false_ne_true] at hencode hencode'
  rw [hj, eq_of_encode_eq hwf hcanonical hwf' hcanonical' (hencode.trans hencode'.symm)]

/-- The two-word patterns are rows of the table. -/
theorem exists_decodeWords_of_long {w : Word} (h : isLongWord w = true) (w1 : Word) : ∃ i, decodeWords w w1 = some i := by
  have rows : longPatterns.all (fun p => decodeTable.any fun row => row.pattern == p) = true := by decide
  obtain ⟨p, hp, hhit⟩ := (isLongWord_iff w).mp h
  obtain ⟨row, hrow, hpattern⟩ := List.any_eq_true.mp (List.all_eq_true.mp rows p hp)
  rw [beq_iff_eq] at hpattern
  exact ⟨_, decodeWords_eq_some_iff.mpr ⟨row, hrow, (row.hits_iff w).mpr (hpattern ▸ hhit), rfl⟩⟩

end Sys2Proof

namespace Sys2Proof.Machine

/-! ### Fetching (R30, R107, R108) -/

section
variable {s : State} {w w1 : Word}

theorem State.progWord_eq_none {a : Nat} (h : s.cfg.flashWords ≤ a) : s.progWord? a = none := by
  rw [State.progWord?, if_neg (Nat.not_lt.mpr h)]

/-- A fetch whose words can be read is the decoding of them. -/
theorem State.fetch_of_words (hw : s.progWord? s.pc.toNat = some w)
    (hw1 : isLongWord w = true → s.progWord? ((s.pc.toNat + 1) % 2 ^ s.cfg.pcBits) = some w1) :
    s.fetch = decodeOn s.cfg.core w (if isLongWord w = true then w1 else 0#16) := by
  rw [State.fetch, hw]
  dsimp only
  split_ifs with hlong
  · rw [hw1 hlong]
  · rfl

theorem decodeWords_fetched {i : Instr} (h : decodeWords w w1 = some i) :
    decodeWords w (if isLongWord w = true then w1 else 0#16) = some i := by
  cases hlong : isLongWord w
  · exact decodeWords_of_short hlong h 0#16
  · exact h

theorem decodeOn_of_implemented {core : CoreKind} {i : Instr} (h : decodeWords w w1 = some i) (hi : i.implementedOn core = true) :
    decodeOn core w w1 = .next i := by
  simp only [decodeOn, h, hi, if_true]

theorem decodeOn_of_unimplemented {core : CoreKind} {i : Instr} (h : decodeWords w w1 = some i) (hi : i.implementedOn core = false) :
    decodeOn core w w1 = .refused (.illegalInstruction w) := by
  simp only [decodeOn, h, hi, Bool.false_eq_true, if_false]

theorem decodeOn_of_reserved {core : CoreKind} (h : decodeWords w w1 = none) :
    decodeOn core w w1 = .refused (.illegalInstruction w) := by
  simp only [decodeOn, h]

theorem step_of_run (hrun : s.nextAction = .run) : step s = bindRes s.fetch fun i => exec i s.beginInstr := by
  rw [step, hrun]

theorem step_of_fetch {i : Instr} (hrun : s.nextAction = .run) (h : s.fetch = .next i) : step s = exec i s.beginInstr := by
  rw [step_of_run hrun, h, bindRes_next]

end

/-- Settles O46: the fetch answers the instruction, since a one-word instruction does not read the second word. -/
theorem stepRunsDecodedInstruction : Obligations.StepRunsDecodedInstruction := by
  unfold Obligations.StepRunsDecodedInstruction
  intro s w w1 i hrun hw hw1 hi himpl
  have hfetch : s.fetch = .next i := by
    rw [State.fetch_of_words hw hw1]
    exact decodeOn_of_implemented (decodeWords_fetched hi) himpl
  exact ⟨step_of_fetch hrun hfetch, rfl⟩

/-- Settles O47: a step that would run an instruction stops where its fetch does. -/
theorem fetchStops : Obligations.FetchStops := by
  unfold Obligations.FetchStops
  intro s hrun
  rw [step_of_run hrun]
  refine ⟨fun hout => ?first, fun w hw => ⟨fun hlong hout => ?second, fun hreserved => ?reserved, fun w1 i hw1 hi himpl => ?missing⟩⟩
  case first => rw [State.fetch, State.progWord_eq_none hout, bindRes_fault]
  case second =>
    rw [State.fetch, hw]
    dsimp only
    rw [if_pos hlong, State.progWord_eq_none hout, bindRes_fault]
  case reserved =>
    have hnone (w1 : Word) : decodeWords w w1 = none := (reservedWordsAreTheSevenClasses w w1).mpr hreserved
    have hshort : ¬ isLongWord w = true := fun hlong => by
      obtain ⟨i, hi⟩ := exists_decodeWords_of_long hlong 0#16
      rw [hnone] at hi
      cases hi
    rw [State.fetch_of_words (w1 := 0#16) hw fun hlong => absurd hlong hshort, decodeOn_of_reserved (hnone _), bindRes_refused]
  case missing =>
    rw [State.fetch_of_words hw hw1, decodeOn_of_unimplemented (decodeWords_fetched hi) himpl, bindRes_refused]

/-! ### Interrupts (R312 to R315) -/

theorem State.lowestRequest_eq_some_iff {s : State} {n : Nat} :
    s.lowestRequest = some n ↔ (n ∈ s.currentBoundary.irqs ∧ 1 ≤ n ∧ n < s.cfg.nVectors) ∧
      ∀ m, m ∈ s.currentBoundary.irqs → 1 ≤ m → m < s.cfg.nVectors → n ≤ m := by
  rw [State.lowestRequest, List.min?_eq_some_iff]
  simp only [List.mem_filter, decide_eq_true_iff, and_imp]

theorem State.irqToTake_eq_some_iff {s : State} {n : Nat} :
    s.irqToTake = some n ↔ (s.flag flagI = true ∧ s.irqShadow = false ∧ s.runState ≠ .stopped) ∧ s.lowestRequest = some n := by
  rw [State.irqToTake]
  split_ifs with h
  · simp only [h, true_and]
    tauto
  · simp only [h, false_and]

theorem State.nextAction_eq_irq_iff {s : State} {n : Nat} :
    s.nextAction = .irq n ↔ s.currentBoundary.reset = false ∧ s.irqToTake = some n := by
  rw [State.nextAction]
  cases s.currentBoundary.reset
  · cases s.irqToTake
    · simp only [Bool.false_eq_true, if_false, true_and, reduceCtorEq, iff_false]
      split_ifs <;> simp
    · simp
  · simp

/-- Settles O48: the conditions of `nextAction` and `irqToTake`, and the least of the requests. -/
theorem interruptTakenIff : Obligations.InterruptTakenIff := by
  unfold Obligations.InterruptTakenIff
  intro s n
  rw [State.nextAction_eq_irq_iff, State.irqToTake_eq_some_iff, State.lowestRequest_eq_some_iff]
  simp only [and_assoc]

/-- The state in which an interrupt entry leaves the one after its push. -/
def State.atVector (t : State) (n : Nat) : State :=
  ({ t with sreg := putBit t.sreg flagI false
            pc := t.cfg.wrapPc (n * t.cfg.vectorStride)
            runState := .running
            irqShadow := false }).emit (.irqTaken n)

theorem step_of_irq {s t : State} {n : Nat} (hirq : s.nextAction = .irq n) (h : s.popBoundary.pushPc s.pc = .next t)
    (hcfg : t.cfg = s.cfg) : step s = .next (t.atVector n) := by
  rw [step, hirq]
  change bindRes (s.popBoundary.pushPc s.pc) _ = _
  rw [h, bindRes_next, State.atVector, hcfg]
  rfl

theorem State.flagI_atVector (t : State) (n : Nat) : (t.atVector n).flag flagI = false :=
  (putBit_getLsbD t.sreg flagI flagI false).trans (if_pos rfl)

theorem State.flags_atVector (t : State) (n : Nat) : SameFlags [flagI] t (t.atVector n) := fun _ hb => putBit_kept hb

/-- A pushed address does not speak of what an interrupt entry writes after its push. -/
theorem Pushed.atVector {a : PcWord} {s t : State} (h : Pushed a s t) (n : Nat) : Pushed a s (t.atVector n) :=
  ⟨h.sp, h.sram, h.reg, h.sramFrame, h.regFrame, h.cfg, h.hwStack, h.boundaries, h.ioAnswers, h.draws, h.prog, h.noIo⟩

/-- Settles O49: the push of the program counter, and the writes of R314 after it. -/
theorem interruptEntry : Obligations.InterruptEntry := by
  unfold Obligations.InterruptEntry
  intro s n hirq hpush
  obtain ⟨t, ht, hpushed, -, -, hquiet⟩ := State.pushPc_pushed (s := s.popBoundary) s.pc hpush
  refine ⟨t.atVector n, step_of_irq hirq ht hpushed.cfg, hpushed.atVector n, ?_, t.flagI_atVector n, rfl, rfl, rfl, fun hnoIo => ?_⟩
  · change t.cfg.wrapPc (n * t.cfg.vectorStride) = _
    rw [hpushed.cfg]
    rfl
  · obtain ⟨hsreg, -, hevents⟩ := hquiet hnoIo
    refine ⟨fun b hb => (t.flags_atVector n b hb).trans ?_, congrArg (_ :: ·) hevents⟩
    rw [State.flag, hsreg]
    rfl

/-- Settles O50: the hardware stack's push, and its overflow. -/
theorem interruptEntryOnHardwareStack : Obligations.InterruptEntryOnHardwareStack := by
  unfold Obligations.InterruptEntryOnHardwareStack
  intro s n hirq hs
  refine ⟨fun hroom => ?room, fun hfull => ?full⟩
  case room =>
    have ht := State.pushPc_hardware (s := s.popBoundary) s.pc hs hroom
    exact ⟨_, step_of_irq hirq ht rfl, rfl, rfl, State.flagI_atVector _ n, State.flags_atVector _ n, fun _ _ => rfl, rfl,
      fun _ => rfl, rfl, rfl, rfl, fun _ => rfl, rfl, rfl, rfl, rfl, rfl, rfl⟩
  case full =>
    rw [step, hirq]
    change bindRes (s.popBoundary.pushPc s.pc) _ = _
    rw [State.pushPc_overflow (s := s.popBoundary) s.pc hs hfull, bindRes_fault]

/-- Clearing and then setting a bit that was set changes nothing. -/
theorem putBit_false_true {v : Byte} {b : Fin 8} (h : v.getLsbD b.val = true) : putBit (putBit v b false) b true = v := by
  refine BitVec.eq_of_getLsbD_eq fun j hj => ?_
  refine (putBit_getLsbD (putBit v b false) b ⟨j, hj⟩ true).trans ?_
  rw [putBit_getLsbD]
  split_ifs with hjb
  · subst hjb
    exact h.symm
  · rfl

/-- Settles O51: the pop gives back what the entry pushed, and RETI sets the I that the entry cleared. -/
theorem interruptThenReti : Obligations.InterruptThenReti := by
  unfold Obligations.InterruptThenReti
  intro s n hirq _ hpc hs hsram
  obtain ⟨-, hI, -⟩ := (interruptTakenIff s n).mp hirq
  obtain ⟨t, ht, hpushed, -, -, hquiet⟩ := State.pushPc_pushed (s := s.popBoundary) s.pc
    ⟨hs, fun j hj => by rw [State.popBoundary_cfg, State.popBoundary_sp, hsram j hj]; simp⟩
  obtain ⟨hsreg, -, -⟩ := hquiet fun j hj => by rw [State.popBoundary_cfg, State.popBoundary_sp, hsram j hj]; simp
  obtain ⟨u, hu, husp, huregs, -, hurest, husreg⟩ := (hpushed.atVector n).popPc hs hsram hpc
  refine ⟨t.atVector n, { u with pc := s.pc, sreg := putBit u.sreg flagI true, irqShadow := true }, step_of_irq hirq ht hpushed.cfg,
    ?_, rfl, husp, ?_, ?_, rfl, hurest.runState⟩
  · change State.returnFromIrq _ = _
    rw [State.returnFromIrq, hu, bindRes_next]
  · exact fun i hi => (huregs i hi).trans ((hpushed.atVector n).sameRegs hsram i hi)
  · have hcleared : u.sreg = putBit s.sreg flagI false := by
      rw [husreg]
      exact congrArg (putBit · flagI false) hsreg
    change putBit u.sreg flagI true = s.sreg
    rw [hcleared, putBit_false_true hI]

/-! ### Reset and the end of a run (R317, R340, R354) -/

/-- Settles O52: the fields that `takeReset` leaves. -/
theorem resetEvent : Obligations.ResetEvent := by
  unfold Obligations.ResetEvent
  intro s hreset
  have hstep : step s = .next s.popBoundary.takeReset := by
    have haction : s.nextAction = .reset := by rw [State.nextAction, if_pos hreset]
    rw [step, haction]
  refine ⟨_, hstep, by simp, by simp, by simp, by simp, by simp, by simp, by simp, fun b => ?_, by simp, fun i => by simp, by simp,
    fun a => ?_, ?_, by simp, by simp, by simp⟩
  · rw [State.progByte, State.takeReset_prog]
    rfl
  · rw [State.sramByte?, State.takeReset_sram]
    rfl
  · rw [State.takeReset_draws]
    exact Nat.lt_add_of_pos_right (by decide)

section
variable {s : State} (hreset : s.currentBoundary.reset = false)
include hreset

theorem State.nextAction_of_no_irq (h : s.irqToTake = none) :
    s.nextAction = if s.runState = .running then .run else .idle := by
  rw [State.nextAction, hreset, h, if_neg Bool.false_ne_true]

theorem step_of_idle (h : s.irqToTake = none) (hrun : s.runState ≠ .running) : step s = .next s.popBoundary := by
  have haction : s.nextAction = .idle := by rw [State.nextAction_of_no_irq hreset h, if_neg hrun]
  rw [step, haction]

theorem step_of_stopped (h : s.runState = .stopped) : step s = .next s.popBoundary :=
  step_of_idle hreset (if_neg fun ⟨_, _, hrun⟩ => hrun h) (by rw [h]; simp)

end

theorem State.irqToTake_of_flagI {s : State} (h : s.flag flagI = false) : s.irqToTake = none :=
  if_neg fun ⟨hI, _⟩ => by rw [h] at hI; exact Bool.false_ne_true hI

theorem State.irqToTake_of_shadow {s : State} (h : s.irqShadow = true) : s.irqToTake = none :=
  if_neg fun ⟨_, hclear, _⟩ => by rw [h] at hclear; exact Bool.noConfusion hclear

theorem State.irqToTake_of_no_request {s : State} (h : s.currentBoundary.irqs = []) : s.irqToTake = none := by
  rw [State.irqToTake, State.lowestRequest, h]
  split_ifs <;> rfl

theorem State.currentBoundary_irqs {s : State} (h : ∀ b ∈ s.boundaries, b.irqs = []) : s.currentBoundary.irqs = [] := by
  rw [State.currentBoundary]
  cases hb : s.boundaries with
  | nil => rfl
  | cons b rest => exact h b (by rw [hb]; exact List.mem_cons_self)

/-- RJMP to itself: the target is the program counter. -/
theorem State.exec_rjmp_self {s : State} (h : s.pc.toNat < 2 ^ s.cfg.pcBits) : exec (.rjmp 0xFFF#12) s = .next s := by
  have htarget : s.relTarget (0xFFF#12).toInt = s.pc.toNat := by
    have hback : (0xFFF#12).toInt = -1 := by decide
    rw [hback, State.relTarget, Int.add_neg_cancel_right, Int.emod_eq_of_lt (Int.natCast_nonneg _) (Int.ofNat_lt.mpr h),
      Int.toNat_natCast]
  change (.next (s.setPc (s.relTarget (0xFFF#12).toInt)) : Res State) = _
  rw [htarget, State.setPc, Config.wrapPc_toNat s.cfg s.pc h]

/-- Settles O53: no interrupt is taken, so that the step is idle, or runs the RJMP that ended the run. -/
theorem sleepingStoppedAndEndedRuns : Obligations.SleepingStoppedAndEndedRuns := by
  unfold Obligations.SleepingStoppedAndEndedRuns
  intro s hreset
  have asleep (h : s.runState = .sleeping) : s.runState ≠ .running := by rw [h]; simp
  refine ⟨step_of_stopped hreset, fun hsleep hquiet => ?sleeping, fun hhung => ⟨?hung, hhung⟩, fun a hended ha => ?ended⟩
  case sleeping =>
    refine step_of_idle hreset ?_ (asleep hsleep)
    rcases hquiet with hI | hshadow | hirqs
    · exact State.irqToTake_of_flagI hI
    · exact State.irqToTake_of_shadow hshadow
    · exact State.irqToTake_of_no_request hirqs
  case hung =>
    rcases hhung with hstop | ⟨hsleep, hI⟩
    · exact step_of_stopped hreset hstop
    · exact step_of_idle hreset (State.irqToTake_of_flagI hI) (asleep hsleep)
  case ended =>
    obtain ⟨hrunning, rfl, hword, hquiet⟩ := hended
    have hirq : s.irqToTake = none := by
      rcases hquiet with hI | hirqs
      · exact State.irqToTake_of_flagI hI
      · exact State.irqToTake_of_no_request (State.currentBoundary_irqs hirqs)
    have hrun : s.nextAction = .run := by rw [State.nextAction_of_no_irq hreset hirq, if_pos hrunning]
    have hdecode : decodeWords 0xCFFF#16 0#16 = some (.rjmp 0xFFF#12) := by decide
    obtain ⟨hstep, -⟩ := stepRunsDecodedInstruction s _ _ _ hrun hword (fun hlong => absurd hlong (by decide)) hdecode rfl
    refine ⟨hstep.trans (State.exec_rjmp_self ha), hrunning, rfl, hword, hquiet.imp id fun hirqs b hb => ?_⟩
    exact hirqs b (List.mem_of_mem_tail hb)
end Sys2Proof.Machine
end
